-- ==== Sys2Proof/Word.lean ====
section
/-! DEFINITION. The word types of the block: 32-bit words on the host ports (R24), bytes of frames
and datagrams (R40), 11-bit channel values (R15), 64-bit filtered values (R25), and the indices of
the ChannelTable (R13, R14). -/

namespace Sys2Proof

/-- A command word, operand word, result word or 32-bit register (R24). -/
abbrev Word := BitVec 32

/-- A byte of a frame, an envelope or a datagram (R40). -/
abbrev Byte := BitVec 8

/-- A channel value, 0..2047 (R15, R110). -/
abbrev ChVal := BitVec 11

/-- A filtered value: 64-bit two's complement with 16 fraction bits (R25, R115). -/
abbrev Filtered := BitVec 64

/-- A bus index b: bus b+1 of the source (R76). -/
abbrev BusIx := Fin 2

/-- A channel index c: channel c+1 of the source (R76). -/
abbrev ChIx := Fin 16

/-- The 16 channel values of one bus (R110, R401). -/
abbrev Channels := Vector ChVal 16

/-- A 25-byte SBUS frame (R400). -/
abbrev Frame := Vector Byte 25

/-- A 26-byte transport envelope (R700). -/
abbrev Envelope := Vector Byte 26

end Sys2Proof
end

