-- ==== Sys2Proof/Config.lean ====
section
/-! DEFINITION. What the spec leaves open (92_eei_decisions.md, Open parameters; 93 Part 1): every
constant here is opaque, so no proof can rest on what it is. -/

namespace Sys2Proof

/-- The transport's answer to one transmit record (R611). -/
inductive TxOutcome where
  | accept
  | reject
  deriving DecidableEq, Repr, Inhabited

/-- One less than F_REF, the reference clock's frequency in Hz, which is open but at least 1
(R28, I3). DESIGN CHOICE, log entry 7, safe. -/
opaque Config.fRefLessOne : Nat

/-- F_REF in Hz (R28). -/
def Config.fRef : Nat := Config.fRefLessOne + 1

/-- Which ready agent moves at the n-th choice: any of them (R221, R812, I1).
DESIGN CHOICE, log entry 2, safe. -/
opaque Config.arbiter : Nat → Nat

/-- The transport's answer at the n-th free draw: either (R611, I4).
DESIGN CHOICE, log entry 3, safe. -/
opaque Config.txOutcome : Nat → TxOutcome

/-- How many bytes of the n-th transmit record reached the far end when it was rejected (R613, I5).
DESIGN CHOICE, log entry 10, safe. -/
opaque Config.farEndBytes : Nat → Nat

/-- What the n-th judged candidate leaves in the entries of FS_BUF that hold no collected byte
afterwards (R120, I6). DESIGN CHOICE, log entry 8, safe. -/
opaque Config.staleByte : Nat → Nat → Byte

/-- What TMR_CNT holds after a count past its 32 bits, which only an F_REF of 2^32 times the rate or
more can bring (R126, R620 state no value). DESIGN CHOICE, log entry 14, safe. -/
opaque Config.tmrOverflow : Nat → Word

theorem Config.fRef_pos : 0 < Config.fRef := Nat.succ_pos _

end Sys2Proof
end

