-- ==== Sys2Proof/Syntax.lean ====
section
/-! DEFINITION. The commands of the block (R340): a transaction as it arrives on a port (R300), the
14 opcodes, and the decoded command with its operands. Every row of the opcode table is a constructor
of Instr; an illegal word is no command (R350) and has no constructor. -/

namespace Sys2Proof

/-- One transaction: a command word and the operand words that came with it (R300). -/
structure Command where
  word : Word
  ops  : List Word
  deriving DecidableEq, Repr

/-- The 14 opcodes of the opcode map (R340). -/
inductive Opcode where
  | nop | ctSet | ctGet | ctSnapshot | sbusEncode | sbusDecode | fsPush
  | lqObserve | tick | ppmToSbus | sbusToPpm | cfgRd | cfgWr | dgramRx
  deriving DecidableEq, Repr

/-- A decoded command. Operand words stand as they came; each meaning says how it reads them (R312). -/
inductive Instr where
  | nop
  | ctSet (b : BusIx) (ch : ChIx) (v : Word)
  | ctGet (b : BusIx) (ch : ChIx)
  | ctSnapshot (b : BusIx)
  | sbusEncode (v : Vector Word 16)
  | sbusDecode (w : Vector Word 7)
  | fsPush (x : Byte)
  | lqObserve (r n : Word)
  | tick
  | ppmToSbus (p : Word)
  | sbusToPpm (v : Word)
  | cfgRd (n : Byte)
  | cfgWr (n : Byte) (v : Word)
  | dgramRx (w : Vector Word 7)
  deriving DecidableEq, Repr

/-- The opcode of a decoded command. -/
def Instr.opcode : Instr → Opcode
  | .nop            => .nop
  | .ctSet _ _ _    => .ctSet
  | .ctGet _ _      => .ctGet
  | .ctSnapshot _   => .ctSnapshot
  | .sbusEncode _   => .sbusEncode
  | .sbusDecode _   => .sbusDecode
  | .fsPush _       => .fsPush
  | .lqObserve _ _  => .lqObserve
  | .tick           => .tick
  | .ppmToSbus _    => .ppmToSbus
  | .sbusToPpm _    => .sbusToPpm
  | .cfgRd _        => .cfgRd
  | .cfgWr _ _      => .cfgWr
  | .dgramRx _      => .dgramRx

/-- The command-word fields of a decoded command (R301): B, CH and IMM8, 0 where it uses none
(R302). -/
def Instr.fields : Instr → Nat × Nat × Nat
  | .ctSet b ch _   => (b.val, ch.val, 0)
  | .ctGet b ch     => (b.val, ch.val, 0)
  | .ctSnapshot b   => (b.val, 0, 0)
  | .fsPush x       => (0, 0, x.toNat)
  | .cfgRd n        => (0, 0, n.toNat)
  | .cfgWr n _      => (0, 0, n.toNat)
  | .nop | .sbusEncode _ | .sbusDecode _ | .lqObserve _ _ | .tick | .ppmToSbus _ | .sbusToPpm _ | .dgramRx _ => (0, 0, 0)

/-- The operand words of a decoded command, in order. -/
def Instr.operands : Instr → List Word
  | .ctSet _ _ v    => [v]
  | .sbusEncode v   => v.toList
  | .sbusDecode w   => w.toList
  | .lqObserve r n  => [r, n]
  | .ppmToSbus p    => [p]
  | .sbusToPpm v    => [v]
  | .cfgWr _ v      => [v]
  | .dgramRx w      => w.toList
  | .nop | .ctGet _ _ | .ctSnapshot _ | .fsPush _ | .tick | .cfgRd _ => []

end Sys2Proof
end

