-- ==== Sys2Proof/WellFormed.lean ====
section
/-! DEFINITION. When a transaction is a legal command, by the four conditions of R350 on its word's
fields and by the operand count of R300. It is written from R301, R302 and R350 and does not use the
match and mask table of Decode.lean, so that the two can be held against each other. (A term of Instr
needs no check of its own: its operands have exactly the counts and ranges of R340.) -/

namespace Sys2Proof

/-- The bits hi..lo of a word, read as an unsigned number (R40). -/
def Word.bits (w : Word) (hi lo : Nat) : Nat := w.toNat / 2 ^ lo % 2 ^ (hi + 1 - lo)

/-- What R302 and the opcode map say of an opcode's use of the word: whether B, CH and IMM8 are used,
and how many operand words follow. -/
structure FieldUse where
  usesB    : Bool
  usesCh   : Bool
  usesImm8 : Bool
  nops     : Nat
  deriving DecidableEq, Repr

/-- The fields each assigned opcode uses (R302) and its operand count (R340); none for the 242
unassigned values (R350 a). -/
def fieldUse : Nat → Option FieldUse
  | 0x00 => some ⟨false, false, false, 0⟩
  | 0x01 => some ⟨true, true, false, 1⟩
  | 0x02 => some ⟨true, true, false, 0⟩
  | 0x03 => some ⟨true, false, false, 0⟩
  | 0x10 => some ⟨false, false, false, 16⟩
  | 0x11 => some ⟨false, false, false, 7⟩
  | 0x20 => some ⟨false, false, true, 0⟩
  | 0x30 => some ⟨false, false, false, 2⟩
  | 0x40 => some ⟨false, false, false, 0⟩
  | 0x50 => some ⟨false, false, false, 1⟩
  | 0x51 => some ⟨false, false, false, 1⟩
  | 0x60 => some ⟨false, false, true, 0⟩
  | 0x61 => some ⟨false, false, true, 1⟩
  | 0x70 => some ⟨false, false, false, 7⟩
  | _    => none

/-- R350 (b): both reserved fields are 0. -/
def Word.reservedZero (w : Word) : Bool := w.bits 15 13 == 0 && w.bits 31 29 == 0

/-- R350 (c): B, CH and IMM8 are 0 where the command does not use them. -/
def Word.unusedZero (w : Word) (u : FieldUse) : Bool :=
  (u.usesB || w.bits 8 8 == 0) && (u.usesCh || w.bits 12 9 == 0) && (u.usesImm8 || w.bits 23 16 == 0)

/-- R350: the word is one of the 14 commands. -/
def Word.legal (w : Word) : Bool :=
  match fieldUse (w.bits 7 0) with
  | none   => false
  | some u => w.reservedZero && w.unusedZero u && w.bits 28 24 == u.nops

/-- R300: as many operand words came as the word announces. -/
def Command.complete (c : Command) : Bool := c.ops.length == c.word.bits 28 24

/-- A legal, complete transaction. -/
def Command.wellFormed (c : Command) : Bool := c.word.legal && c.complete

end Sys2Proof
end

