-- ==== Sys2Proof/Decode.lean ====
section
/-! DEFINITION. The opcode map and the decoder (R340, R341), framing of a port's word stream
(R300, R355), and the encoder, written from the same map. -/

namespace Sys2Proof

/-- One row of the opcode map (R340). -/
structure Row where
  code   : Byte
  nops   : Nat
  nres   : Nat
  match' : Word
  mask   : Word
  deriving DecidableEq, Repr

/-- The opcode map (R340). -/
def Opcode.row : Opcode → Row
  | .nop        => ⟨0x00, 0, 0, 0x00000000, 0xFFFFFFFF⟩
  | .ctSet      => ⟨0x01, 1, 0, 0x01000001, 0xFFFFE0FF⟩
  | .ctGet      => ⟨0x02, 0, 1, 0x00000002, 0xFFFFE0FF⟩
  | .ctSnapshot => ⟨0x03, 0, 16, 0x00000003, 0xFFFFFEFF⟩
  | .sbusEncode => ⟨0x10, 16, 7, 0x10000010, 0xFFFFFFFF⟩
  | .sbusDecode => ⟨0x11, 7, 16, 0x07000011, 0xFFFFFFFF⟩
  | .fsPush     => ⟨0x20, 0, 17, 0x00000020, 0xFF00FFFF⟩
  | .lqObserve  => ⟨0x30, 2, 1, 0x02000030, 0xFFFFFFFF⟩
  | .tick       => ⟨0x40, 0, 1, 0x00000040, 0xFFFFFFFF⟩
  | .ppmToSbus  => ⟨0x50, 1, 1, 0x01000050, 0xFFFFFFFF⟩
  | .sbusToPpm  => ⟨0x51, 1, 1, 0x01000051, 0xFFFFFFFF⟩
  | .cfgRd      => ⟨0x60, 0, 1, 0x00000060, 0xFF00FFFF⟩
  | .cfgWr      => ⟨0x61, 1, 0, 0x01000061, 0xFF00FFFF⟩
  | .dgramRx    => ⟨0x70, 7, 0, 0x07000070, 0xFFFFFFFF⟩

/-- Every opcode once, in the map's order (R340). -/
def Opcode.all : List Opcode :=
  [.nop, .ctSet, .ctGet, .ctSnapshot, .sbusEncode, .sbusDecode, .fsPush, .lqObserve, .tick,
    .ppmToSbus, .sbusToPpm, .cfgRd, .cfgWr, .dgramRx]

/-- The row whose opcode is `code`, if one has it (R341). -/
def Opcode.ofCode (code : Byte) : Option Opcode := Opcode.all.find? fun o => o.row.code == code

/-- OPC, bits 7:0 (R301). -/
def opcField (w : Word) : Byte := w.extractLsb' 0 8

/-- B, bit 8: the bus index (R301, R310). -/
def busField (w : Word) : BusIx := (w.extractLsb' 8 1).toFin

/-- CH, bits 12:9: the channel index (R301, R310). -/
def chField (w : Word) : ChIx := (w.extractLsb' 9 4).toFin

/-- IMM8, bits 23:16, used without extension (R301, R311). -/
def imm8Field (w : Word) : Byte := w.extractLsb' 16 8

/-- NOPS, bits 28:24: the number of operand words that follow (R301). -/
def nopsField (w : Word) : Nat := (w.extractLsb' 24 5).toNat

/-- Why a transaction is no command. -/
inductive Reject where
  /-- No row has the word's opcode: ILLEGAL_CMD (R350 a). -/
  | noSuchOpcode
  /-- The row's mask and match do not hold: ILLEGAL_CMD (R350 b to d). -/
  | fieldMismatch
  /-- The operand words are not as many as the row takes. A port never presents such a transaction
  (R300), so no step meets it. -/
  | operandCount
  /-- Fewer words have come than the command word announces: the port waits (R300, R920). -/
  | incomplete
  deriving DecidableEq, Repr

/-- The operand words as exactly `n` words. -/
def takeOps (n : Nat) (ops : List Word) : Except Reject (Vector Word n) :=
  if h : ops.length = n then .ok ⟨⟨ops⟩, h⟩ else .error .operandCount

/-- The command of a word whose row is already known to match, with its operand words (R341, R302). -/
def build (o : Opcode) (w : Word) (ops : List Word) : Except Reject Instr :=
  match o with
  | .nop        => (takeOps 0 ops).map fun _ => .nop
  | .ctSet      => (takeOps 1 ops).map fun v => .ctSet (busField w) (chField w) v[0]
  | .ctGet      => (takeOps 0 ops).map fun _ => .ctGet (busField w) (chField w)
  | .ctSnapshot => (takeOps 0 ops).map fun _ => .ctSnapshot (busField w)
  | .sbusEncode => (takeOps 16 ops).map fun v => .sbusEncode v
  | .sbusDecode => (takeOps 7 ops).map fun v => .sbusDecode v
  | .fsPush     => (takeOps 0 ops).map fun _ => .fsPush (imm8Field w)
  | .lqObserve  => (takeOps 2 ops).map fun v => .lqObserve v[0] v[1]
  | .tick       => (takeOps 0 ops).map fun _ => .tick
  | .ppmToSbus  => (takeOps 1 ops).map fun v => .ppmToSbus v[0]
  | .sbusToPpm  => (takeOps 1 ops).map fun v => .sbusToPpm v[0]
  | .cfgRd      => (takeOps 0 ops).map fun _ => .cfgRd (imm8Field w)
  | .cfgWr      => (takeOps 1 ops).map fun v => .cfgWr (imm8Field w) v[0]
  | .dgramRx    => (takeOps 7 ops).map fun v => .dgramRx v

/-- The decode procedure of R341. -/
def decode (c : Command) : Except Reject Instr :=
  match Opcode.ofCode (opcField c.word) with
  | none   => .error .noSuchOpcode
  | some o => if c.word &&& o.row.mask = o.row.match' then build o c.word c.ops else .error .fieldMismatch

/-- The next transaction of a port's word stream and the words after it, once the command word and
all NOPS operand words have arrived (R300, R355). The length is read before the word is judged. -/
def takeTransaction : List Word → Option (Command × List Word)
  | []      => none
  | w :: ws =>
    if nopsField w ≤ ws.length then some (⟨w, ws.take (nopsField w)⟩, ws.drop (nopsField w)) else none

/-- The decoder on a word stream: total, rejecting by name. -/
def decodeWords (ws : List Word) : Except Reject (Instr × List Word) :=
  match takeTransaction ws with
  | none           => .error .incomplete
  | some (c, rest) => (decode c).map fun i => (i, rest)

/-- The number of result words of a command's response (R320, R340). -/
def Instr.nres (i : Instr) : Nat := i.opcode.row.nres

/-- The command word of a decoded command: its row's match with the fields it uses (R340, R361). -/
def encodeWord (i : Instr) : Word :=
  i.opcode.row.match' ||| BitVec.ofNat 32 i.fields.1 <<< 8 ||| BitVec.ofNat 32 i.fields.2.1 <<< 9
    ||| BitVec.ofNat 32 i.fields.2.2 <<< 16

/-- The encoder: the transaction of a decoded command (R361). -/
def encode (i : Instr) : Command := ⟨encodeWord i, i.operands⟩

/-- The words of a decoded command as a host port carries them (R300). -/
def encodeWords (i : Instr) : List Word := encodeWord i :: i.operands

/-- The transaction of the words numbered as the opcode table numbers their bits: bit 0 of `w` is the
command word's bit 0, the first operand word's bits follow at bit 32, and so on. Bits from `nbits` up
are 0. There are as many operand words as the command word announces. -/
def tableCommand (nbits w : Nat) : Command :=
  let v := w % 2 ^ nbits
  let cw := BitVec.ofNat 32 v
  ⟨cw, (List.range (nopsField cw)).map fun k => BitVec.ofNat 32 (v >>> (32 * (k + 1)))⟩

/-- What the decoder reads from an instruction given as one number. -/
def decodeTableWord (nbits w : Nat) : Option Instr :=
  match decode (tableCommand nbits w) with
  | .ok i    => some i
  | .error _ => none

end Sys2Proof
end

