-- ==== Sys2Proof/Machine/State.lean ====
section
/-! DEFINITION. The state of the block as plain data: every element of the inventory R103, what R300,
R811 and R901 imply, the observations (responses, TX, FS_OUT), and the model's own fields, each marked
as such; and the state after reset (R900). -/

namespace Sys2Proof.Machine

/-- Where a command comes from (R201): a host port by its index, or an internal source. -/
inductive Source where
  | host (p : Nat)
  | serRx
  | dgRx
  | rsRx
  | timer
  deriving DecidableEq, Repr

/-- What can move in one step: the outside world presents its next input, the reference clock makes a
cycle (R620), or the arbiter grants a source and its command runs (R221). -/
inductive Agent where
  | input
  | clock
  | grant (src : Source)
  deriving DecidableEq, Repr

/-- One thing the outside world does to the block (R201, R901). -/
inductive Input where
  /-- A word arrives on host port p (R202). -/
  | hostWord (p : Nat) (w : Word)
  /-- A byte arrives on the serial receive port (R470). -/
  | serByte (x : Byte)
  /-- A datagram arrives on the datagram port (R705). -/
  | datagram (d : List Byte)
  /-- A datagram arrives on the radio-status port (R570). -/
  | radioStatus (d : List Byte)
  /-- The reset input is asserted (true) or released (false) (R901). -/
  | reset (asserted : Bool)
  deriving DecidableEq, Repr

/-- One response on host port `port`: its status word, then its result words (R320). -/
structure Response where
  port  : Nat
  words : List Word
  deriving DecidableEq, Repr

/-- One transmit record (R600). -/
structure TxRecord where
  bus     : BusIx
  bytes   : List Byte
  outcome : TxOutcome
  deriving DecidableEq, Repr

/-- One record of the FrameSync output stream FS_OUT (R462). -/
structure FsRecord where
  frame    : Frame
  channels : Channels
  deriving DecidableEq, Repr

/-- The 13 event counters (R151 to R163), in the order of their register numbers. -/
inductive Counter where
  | tick | tickMiss | fsSkip | txOk | txErr | fsFrames | fsResync | fsDrop
  | dgramOk | dgramDrop | badCmd | lqObs | rstatDrop
  deriving DecidableEq, Repr

structure State where
  /-- CT[b][c] (R110). -/
  ct : Vector Channels 2
  /-- F_RSSI (R115). -/
  fRssi : Filtered
  /-- F_NOISE (R116). -/
  fNoise : Filtered
  /-- LQ_SEEDED (R117). -/
  lqSeeded : Bool
  /-- FAILSAFE (R118). -/
  failsafe : Bool
  /-- FS_BUF[0..24] (R120). -/
  fsBuf : Vector Byte 25
  /-- FS_CNT, 0..24 (R121). -/
  fsCnt : Fin 25
  /-- TICK_PEND (R125). -/
  tickPend : Bool
  /-- TMR_CNT (R126). -/
  tmrCnt : Word
  /-- LAT_RSSI_HI (R127). -/
  latRssiHi : Word
  /-- LAT_NOISE_HI (R127). -/
  latNoiseHi : Word
  /-- CTRL bits 6:0; bits 31:7 read as 0 and are not stored (R131, R139). -/
  ctrl : BitVec 7
  /-- GND_FREQ bits 15:0 (R140). -/
  gndFreq : BitVec 16
  /-- ALPHA bits 15:0 (R141). -/
  alpha : BitVec 16
  /-- SNR_MIN (R142). -/
  snrMin : Word
  /-- SNR_MAX (R143). -/
  snrMax : Word
  /-- RSSI_MIN (R144). -/
  rssiMin : Word
  /-- RSSI_MAX (R145). -/
  rssiMax : Word
  /-- The 13 event counters, CNT_TICK (0x10) first (R150 to R163). -/
  counters : Vector Word 13
  /-- The port queues Q[p]: presented commands, oldest first, each tagged with its port (R102). -/
  queue : List (Nat × Command)
  /-- Words that have arrived on host ports and complete no transaction yet, oldest first, each
  tagged with its port (R300, R901). -/
  arriving : List (Nat × Word)
  /-- Bytes received on SER_RX and not yet pushed (R470). -/
  serRx : List Byte
  /-- 26-byte datagrams received on DG_RX and not yet run (R705). -/
  dgRx : List Envelope
  /-- 2-byte datagrams received on RS_RX and not yet run: RSSI byte, noise byte (R570, R208). -/
  rsRx : List (Byte × Byte)
  /-- The reset input is asserted (R901). -/
  inReset : Bool
  /-- Observation: the responses given on host ports, oldest first (R320, R840). Log entry 4. -/
  responses : List Response
  /-- Observation: the transmit records on TX, oldest first (R600). Log entry 4. -/
  tx : List TxRecord
  /-- Observation: the records of FS_OUT, oldest first (R462). Log entry 4. -/
  fsOut : List FsRecord
  /-- The model's own: what the outside world presents next, oldest first. Log entry 1. -/
  inbox : List Input
  /-- The model's own: the arbiter's picks that are already settled, next first. Log entry 2. -/
  sched : List Agent
  /-- The model's own: how many steps an agent has moved; feeds Config.arbiter. Log entry 2. -/
  choices : Nat
  /-- The model's own: the transport's answers that are already settled, next first. Log entry 3. -/
  txDraws : List TxOutcome
  /-- The model's own: how many records have been sent; feeds Config.txOutcome. Log entry 3. -/
  drawCount : Nat
  /-- The model's own: the source of the command in progress (R320). Log entry 5. -/
  src : Source
  /-- The model's own: how many candidates have been judged; feeds Config.staleByte. Log entry 8. -/
  judged : Nat
  deriving DecidableEq, Repr

/-- The state after reset (R900). The fields the spec does not name hold the values of log entry 15. -/
def State.reset : State where
  ct := Vector.replicate 2 (Vector.replicate 16 0)
  fRssi := 0
  fNoise := 0
  lqSeeded := false
  failsafe := false
  fsBuf := Vector.replicate 25 0
  fsCnt := 0
  tickPend := false
  tmrCnt := 0
  latRssiHi := 0
  latNoiseHi := 0
  ctrl := 0
  gndFreq := 25
  alpha := 0x4000
  snrMin := 0xFFFFFFF6
  snrMax := 0xFFFFFFFB
  rssiMin := 0xFFFFFF7E
  rssiMax := 0xFFFFFF83
  counters := Vector.replicate 13 0
  queue := []
  arriving := []
  serRx := []
  dgRx := []
  rsRx := []
  inReset := false
  responses := []
  tx := []
  fsOut := []
  inbox := []
  sched := []
  choices := 0
  txDraws := []
  drawCount := 0
  src := .host 0
  judged := 0

/-- Why the machine would stop. No step raises a fault: no command and no input can stop the block
(R804), so there is none to name. -/
inductive Fault
  deriving DecidableEq, Repr

/-- Why a step would have no meaning. -/
inductive Refusal where
  /-- Raised by an arm of exec whose instruction has no meaning yet; safe. No arm is left that does. -/
  | notModelled (mnemonic : String)
  deriving DecidableEq, Repr

end Sys2Proof.Machine
end

