-- ==== Sys2Proof/Machine/Operands.lean ====
section
/-! DEFINITION. The spec's named constants (R13 to R22) and every operand form: signed reading of a
word (R41, R312), clamping (R501), the LSB-first digit sums behind frames and words (R330, R402), and
the operands the internal ports build (R470, R570, R705). -/

namespace Sys2Proof.Machine

/-- START, byte 0 of a frame (R16). -/
def startMarker : Byte := 0x0F
/-- END, byte 24 of a frame (R16). -/
def endMarker : Byte := 0x00
/-- FLAGS_TX, byte 23 of a frame the block builds (R17). -/
def flagsTx : Byte := 0x00
/-- ENV_SBUS_BIT (R18). -/
def envSbusBit : Byte := 0x20
/-- ENV_BUS_BIT (R18). -/
def envBusBit : Byte := 0x01
/-- CH_MAX (R15). -/
def chMax : Int := 2047
/-- PPM_MIN and PPM_MAX (R20). -/
def ppmMin : Int := 800
/-- PPM_MAX (R20). -/
def ppmMax : Int := 2200
/-- PPM_LO_KNEE (R20). -/
def ppmLoKnee : Int := 874
/-- PPM_HI_KNEE (R20). -/
def ppmHiKnee : Int := 2153
/-- AIR_RATE_LOW in Hz (R22). -/
def airRateLow : Nat := 70
/-- AIR_RATE_HIGH in Hz (R22). -/
def airRateHigh : Nat := 140
/-- Q = 2^16, the unit of a filtered value (R550). -/
def qUnit : Int := 65536

/-- s32(w): a word read as two's complement (R41). -/
def s32 (w : Word) : Int := w.toInt

/-- sext_32 of a byte: a radio-status sample as an operand word (R570). -/
def sextByte (x : Byte) : Word := x.signExtend 32

/-- zext_32 of a channel value: a channel as a result word (R511). -/
def chWord (c : ChVal) : Word := c.setWidth 32

/-- clamp11(v) (R501). -/
def clamp11 (v : Int) : ChVal := if v < 0 then 0 else if v > chMax then 2047 else BitVec.ofInt 11 v

/-- The sum of the digits `ds` of width `w`, least significant digit first:
the sum over i of ds[i] shifted left by w·i (R330, R402, R404). -/
def fromDigits (w : Nat) (ds : List (BitVec w)) : Nat := ds.foldr (fun d acc => d.toNat + 2 ^ w * acc) 0

/-- The `n` lowest digits of width `w` of S: digit i is bits w·i+w-1 .. w·i of S (R330, R402, R404). -/
def toDigits (w n S : Nat) : Vector (BitVec w) n := Vector.ofFn fun i => BitVec.ofNat w (S >>> (w * i.val))

/-- words_from_frame(f): little-endian words, padded with 0x00 (R330, R206). -/
def wordsFromFrame (f : List Byte) : List Word := (toDigits 32 ((f.length + 3) / 4) (fromDigits 8 f)).toList

/-- frame_from_words(w, L): the first L bytes of the words; the padding is ignored (R330, R206). -/
def frameFromWords (L : Nat) (ws : List Word) : Vector Byte L := toDigits 8 L (fromDigits 32 ws)

/-- The SBUS frame inside an envelope, e[1..25] (R207, R700). -/
def envelopeFrame (e : Envelope) : Frame := Vector.ofFn fun k => e[k.val + 1]

/-- The command SER_RX builds for a byte (R470). -/
def serCommand (x : Byte) : Command := encode (.fsPush x)

/-- The command DG_RX builds for a 26-byte datagram (R705). -/
def dgCommand (d : Envelope) : Command := ⟨0x07000070, wordsFromFrame d.toList⟩

/-- The command RS_RX builds for a 2-byte datagram (R570). -/
def rsCommand (d : Byte × Byte) : Command := encode (.lqObserve (sextByte d.1) (sextByte d.2))

/-- The command the timer issues (R621). -/
def timerCommand : Command := encode .tick

end Sys2Proof.Machine
end

