-- ==== Sys2Proof/Machine/Ops.lean ====
section
/-! DEFINITION. The named operations over State: the ChannelTable's slots and buses (R110, R503), the
event counters (R150), the fields of CTRL (R131), the response primitive (R46, R320), and what an error
does, the block's one counterpart of taking an exception (R800, R814: no state is saved, nothing is
redirected, so there is no return either). -/

namespace Sys2Proof.Machine

/-- CT[b][c] (R44). -/
def State.slot (s : State) (b : BusIx) (c : ChIx) : ChVal := (s.ct[b])[c]

/-- CT[b][c] <- v (R44). -/
def State.writeSlot (s : State) (b : BusIx) (c : ChIx) (v : ChVal) : State :=
  { s with ct := s.ct.set b ((s.ct[b]).set c v) }

/-- write_bus(b, ch) (R503). -/
def State.writeBus (s : State) (b : BusIx) (ch : Channels) : State := { s with ct := s.ct.set b ch }

/-- The place of a counter: its register number is 0x10 more (R150 to R163). -/
def Counter.ix : Counter → Fin 13
  | .tick => 0 | .tickMiss => 1 | .fsSkip => 2 | .txOk => 3 | .txErr => 4 | .fsFrames => 5
  | .fsResync => 6 | .fsDrop => 7 | .dgramOk => 8 | .dgramDrop => 9 | .badCmd => 10
  | .lqObs => 11 | .rstatDrop => 12

/-- The value of a counter. -/
def State.counter (s : State) (c : Counter) : Word := s.counters[c.ix]

/-- cnt_inc: one more, modulo 2^32 (R47). -/
def State.cntInc (s : State) (c : Counter) : State :=
  { s with counters := s.counters.set c.ix (s.counter c + 1) }

/-- CTRL.ROLE: air transmitter (R131, R132). -/
def State.air (s : State) : Bool := s.ctrl.getLsbD 0
/-- CTRL.SPEED: high air rate (R133). -/
def State.highSpeed (s : State) : Bool := s.ctrl.getLsbD 1
/-- CTRL.BUS2: transmit both buses (R134). -/
def State.bus2 (s : State) : Bool := s.ctrl.getLsbD 2
/-- CTRL.TMR_EN: the tick timer runs (R135). -/
def State.tmrEn (s : State) : Bool := s.ctrl.getLsbD 3
/-- CTRL.FS_STORE: emitted frames are written to the ChannelTable (R136). -/
def State.fsStore (s : State) : Bool := s.ctrl.getLsbD 4
/-- CTRL.FS_BUS: the bus FrameSync writes (R137). -/
def State.fsBus (s : State) : BusIx := if s.ctrl.getLsbD 5 then 1 else 0
/-- CTRL.TX_ENV: transmit envelopes (R138). -/
def State.txEnv (s : State) : Bool := s.ctrl.getLsbD 6

/-- The status codes (R321). -/
inductive Status where
  | ok | badMarker | illegalCmd | badReg | notSbus
  deriving DecidableEq, Repr

/-- A status's code (R321). -/
def Status.code : Status → Word
  | .ok => 0x00 | .badMarker => 0x01 | .illegalCmd => 0x02 | .badReg => 0x03 | .notSbus => 0x04

/-- The status word: STATUS in bits 7:0, the count of result words in bits 28:24 (R320). -/
def statusWord (st : Status) (count : Nat) : Word := st.code ||| BitVec.ofNat 32 count <<< 24

/-- The words of a response (R320). -/
def responseWords (st : Status) (rs : List Word) : List Word := statusWord st rs.length :: rs

/-- What a response adds to the host ports: on a host port its words; an internal port throws the
response away (R320, R201). -/
def answer (src : Source) (st : Status) (rs : List Word) : List Response :=
  match src with
  | .host p => [⟨p, responseWords st rs⟩]
  | .serRx | .dgRx | .rsRx | .timer => []

/-- respond(st, rs): the response goes to the port the command came from (R46, R320). -/
def State.respond (s : State) (st : Status) (rs : List Word) : State :=
  { s with responses := s.responses ++ answer s.src st rs }

/-- What an error does: the counter its rule names, then a response with its status (R800, R801). -/
def State.fail (s : State) (c : Counter) (st : Status) (rs : List Word) : State :=
  (s.cntInc c).respond st rs

/-- An illegal command word: CNT_BAD_CMD and an ILLEGAL_CMD response with no results (R341, R350). -/
def State.illegalCommand (s : State) : State := s.fail .badCmd .illegalCmd []

end Sys2Proof.Machine
end

