-- ==== Sys2Proof/Machine/Flags.lean ====
section
/-! DEFINITION. Every flag computation: the marker check (R405), the failsafe hysteresis (R557), the
STATUS view (R146), and the flag words of the FS_PUSH, LQ_OBSERVE and TICK responses. -/

namespace Sys2Proof.Machine

/-- markers_ok(f) (R405). -/
def markersOk (f : Frame) : Bool := f[0] == startMarker && f[24] == endMarker

/-- The enter condition of the hysteresis (R557). -/
def State.enters (s : State) (snrq fr : Int) : Bool :=
  decide (snrq < s32 s.snrMin * qUnit) || decide (fr < s32 s.rssiMin * qUnit)

/-- The exit condition of the hysteresis (R557). -/
def State.exits (s : State) (snrq fr : Int) : Bool :=
  decide (snrq > s32 s.snrMax * qUnit) && decide (fr > s32 s.rssiMax * qUnit)

/-- FAILSAFE after hysteresis(SNRQ, FR): enter wins, then exit, else unchanged (R557). -/
def State.hysteresis (s : State) (snrq fr : Int) : Bool :=
  if s.enters snrq fr then true else if s.exits snrq fr then false else s.failsafe

/-- A flag at a bit position of a word. -/
def flagAt (b : Bool) (i : Nat) : Word := if b then 1#32 <<< i else 0

/-- STATUS (R146). -/
def State.status (s : State) : Word :=
  flagAt s.failsafe 0 ||| flagAt s.lqSeeded 1 ||| flagAt (decide (1 ≤ s.fsCnt.val)) 2
    ||| flagAt s.tickPend 3 ||| BitVec.ofNat 32 s.fsCnt.val <<< 8

/-- What one FS_PUSH reports (R460). -/
structure PushFlags where
  emit   : Bool
  resync : Bool
  drop   : Bool
  stored : Bool
  deriving DecidableEq, Repr

/-- FS_PUSH's result word 0, with FS_CNT after the update (R460). -/
def PushFlags.word (p : PushFlags) (cnt : Fin 25) : Word :=
  flagAt p.emit 0 ||| flagAt p.resync 1 ||| flagAt p.drop 2 ||| flagAt p.stored 3
    ||| BitVec.ofNat 32 cnt.val <<< 8

/-- LQ_OBSERVE's result word (R556). -/
def lqWord (failsafe seededNow : Bool) : Word := flagAt failsafe 0 ||| flagAt seededNow 1

/-- What one TICK reports (R601). -/
structure TickFlags where
  fsSkip : Bool
  sentB1 : Bool
  sentB2 : Bool
  txErr  : Bool
  deriving DecidableEq, Repr

/-- TICK's result word (R601). -/
def TickFlags.word (t : TickFlags) : Word :=
  flagAt t.fsSkip 0 ||| flagAt t.sentB1 1 ||| flagAt t.sentB2 2 ||| flagAt t.txErr 3

end Sys2Proof.Machine
end

