-- ==== Sys2Proof/Machine/SbusCodec.lean ====
section
/-! DEFINITION. SbusCodec (41_sbus_codec.md): pack, unpack, decode, and the commands SBUS_ENCODE and
SBUS_DECODE. -/

namespace Sys2Proof.Machine

/-- pack(ch): start marker, the 176-bit sum of the channels in 22 bytes, flags, end marker (R402). -/
def pack (ch : Channels) : Frame :=
  let S := fromDigits 11 ch.toList
  Vector.ofFn fun k =>
    if k.val = 0 then startMarker
    else if k.val ≤ 22 then BitVec.ofNat 8 (S >>> (8 * (k.val - 1)))
    else if k.val = 23 then flagsTx
    else endMarker

/-- The 22 payload bytes f[1..22] (R400). -/
def payload (f : Frame) : Vector Byte 22 := Vector.ofFn fun m => f[m.val + 1]

/-- unpack(f): the channels of the payload; f[0], f[23] and f[24] are not read (R404, R406). -/
def unpack (f : Frame) : Channels := toDigits 11 16 (fromDigits 8 (payload f).toList)

/-- decode(f): the channels of a frame whose markers hold, none when they do not (R405). -/
def decodeFrame (f : Frame) : Option Channels := if markersOk f then some (unpack f) else none

/-- A channel vector as 16 result words. -/
def channelWords (ch : Channels) : List Word := ch.toList.map chWord

/-- SBUS_ENCODE (R410). -/
def execSbusEncode (v : Vector Word 16) (s : State) : Host.Outcome State Fault Refusal :=
  .next (s.respond .ok (wordsFromFrame (pack (Vector.ofFn fun i => clamp11 (s32 v[i]))).toList))

/-- SBUS_DECODE (R411). -/
def execSbusDecode (w : Vector Word 7) (s : State) : Host.Outcome State Fault Refusal :=
  match decodeFrame (frameFromWords 25 w.toList) with
  | some ch => .next (s.respond .ok (channelWords ch))
  | none    => .next (s.respond .badMarker (List.replicate 16 0))

end Sys2Proof.Machine
end

