-- ==== Sys2Proof/Machine/ChannelTable.lean ====
section
/-! DEFINITION. ChannelTable (43_channel_table.md): CT_SET, CT_GET, CT_SNAPSHOT. -/

namespace Sys2Proof.Machine

/-- CT_SET (R510): the operand is clamped, never wrapped. -/
def execCtSet (b : BusIx) (ch : ChIx) (v : Word) (s : State) : Host.Outcome State Fault Refusal :=
  .next ((s.writeSlot b ch (clamp11 (s32 v))).respond .ok [])

/-- CT_GET (R511). -/
def execCtGet (b : BusIx) (ch : ChIx) (s : State) : Host.Outcome State Fault Refusal :=
  .next (s.respond .ok [chWord (s.slot b ch)])

/-- CT_SNAPSHOT (R512): all 16 slots at one instant. -/
def execCtSnapshot (b : BusIx) (s : State) : Host.Outcome State Fault Refusal :=
  .next (s.respond .ok (channelWords s.ct[b]))

end Sys2Proof.Machine
end

