-- ==== Sys2Proof/Machine/FrameSync.lean ====
section
/-! DEFINITION. FrameSync (42_frame_sync.md): the Searching and Collecting state machine, the re-scan of
a failed candidate, and the command FS_PUSH. -/

namespace Sys2Proof.Machine

/-- The j for which j+1 is the smallest index in 1..24 with f[j+1] = 0x0F (R461). -/
def laterMarker (f : Frame) : Option (Fin 24) :=
  (List.finRange 24).find? fun j => f[j.val + 1] == startMarker

/-- FS_BUF after a judgement: bytes f[k..24] move to the front; the entries behind them hold no
collected byte and are left open (R461, R120, I6; log entry 8). -/
def keepFrom (f : Frame) (k n : Nat) : Frame :=
  Vector.ofFn fun i => if h : i.val + k < 25 then f[i.val + k] else Config.staleByte n i.val

/-- The state after a judgement that keeps bytes f[k..24], with `cnt` of them. -/
def State.keep (s : State) (f : Frame) (k : Nat) (cnt : Fin 25) : State :=
  { s with fsBuf := keepFrom f k s.judged, fsCnt := cnt, judged := s.judged + 1 }

/-- fs_emit(f, ch): one record on FS_OUT, counted; stored in CT[FS_BUS] when FS_STORE = 1 (R462). -/
def State.fsEmit (s : State) (f : Frame) (ch : Channels) : State :=
  let s' := ({ s with fsOut := s.fsOut ++ [⟨f, ch⟩] } : State).cntInc .fsFrames
  if s.fsStore then s'.writeBus s.fsBus ch else s'

/-- What a push leaves: the state, the flags it reports, and the channels it reports. -/
structure PushResult where
  state    : State
  flags    : PushFlags
  channels : Channels
  deriving DecidableEq, Repr

/-- No flag and 16 zeros: a push that emits nothing (R460). -/
def PushResult.quiet (s : State) : PushResult := ⟨s, ⟨false, false, false, false⟩, Vector.replicate 16 0⟩

/-- The judgement of a full candidate (R453, R454, R461). -/
def judge (f : Frame) (s : State) : PushResult :=
  match decodeFrame f with
  | some ch => ⟨(s.fsEmit f ch).keep f 25 0, ⟨true, false, false, s.fsStore⟩, ch⟩
  | none    =>
    match laterMarker f with
    | some j =>
      ⟨(s.cntInc .fsResync).keep f (j.val + 1) ⟨24 - j.val, by omega⟩, ⟨false, true, false, false⟩,
        Vector.replicate 16 0⟩
    | none   => ⟨(s.cntInc .fsDrop).keep f 25 0, ⟨false, false, true, false⟩, Vector.replicate 16 0⟩

/-- One stream byte (R451, R452, R453). -/
def fsPush (x : Byte) (s : State) : PushResult :=
  if s.fsCnt.val = 0 then
    if x = startMarker then .quiet { s with fsBuf := s.fsBuf.set 0 x, fsCnt := 1 } else .quiet s
  else
    let f := s.fsBuf.set s.fsCnt x
    if h : s.fsCnt.val + 1 < 25 then .quiet { s with fsBuf := f, fsCnt := ⟨s.fsCnt.val + 1, h⟩ }
    else judge f s

/-- FS_PUSH (R460). -/
def execFsPush (x : Byte) (s : State) : Host.Outcome State Fault Refusal :=
  let r := fsPush x s
  .next (r.state.respond .ok (r.flags.word r.state.fsCnt :: channelWords r.channels))

end Sys2Proof.Machine
end

