-- ==== Sys2Proof/Machine/LinkQuality.lean ====
section
/-! DEFINITION. LinkQualityMonitor (44_link_quality.md): the Q16 filter and the command LQ_OBSERVE. -/

namespace Sys2Proof.Machine

/-- The seed of a filtered register for the sample t: t·Q exactly (R552). -/
def lqSeed (t : Int) : Filtered := BitVec.ofInt 64 (t * qUnit)

/-- F + ((t·Q - F)·ALPHA) div Q, div rounding toward minus infinity (R553, R42; Int division by a
positive number rounds down). The result lies between F and t·Q, so it fits 64 bits in every state (R554; log entry 13). -/
def lqUpdate (F : Filtered) (t : Int) (alpha : BitVec 16) : Filtered :=
  BitVec.ofInt 64 (F.toInt + (t * qUnit - F.toInt) * alpha.toNat / qUnit)

/-- F_RSSI and F_NOISE after samples tr and tn (R552, R553). -/
def State.filtered (s : State) (tr tn : Int) : Filtered × Filtered :=
  if s.lqSeeded then (lqUpdate s.fRssi tr s.alpha, lqUpdate s.fNoise tn s.alpha) else (lqSeed tr, lqSeed tn)

/-- The observation itself: negate, filter, hysteresis, count (R551, R556). -/
def State.observe (s : State) (r n : Word) : State :=
  let F := s.filtered (-s32 r) (-s32 n)
  let fs := s.hysteresis (F.1.toInt - F.2.toInt) F.1.toInt
  ({ s with fRssi := F.1, fNoise := F.2, lqSeeded := true, failsafe := fs } : State).cntInc .lqObs

/-- LQ_OBSERVE (R556). -/
def execLqObserve (r n : Word) (s : State) : Host.Outcome State Fault Refusal :=
  .next ((s.observe r n).respond .ok [lqWord (s.observe r n).failsafe (!s.lqSeeded)])

end Sys2Proof.Machine
end

