-- ==== Sys2Proof/Machine/Transmit.lean ====
section
/-! DEFINITION. TransmitScheduler (45_transmit.md): transmit records, the command TICK, the tick timer,
and what the far end of the transport may have received. -/

namespace Sys2Proof.Machine

/-- The bytes handed to the transport: the frame, or the envelope when TX_ENV = 1 (R605). -/
def txBytes (env : Bool) (b : BusIx) (f : Frame) : List Byte :=
  if env then (envSbusBit ||| BitVec.ofNat 8 b.val) :: f.toList else f.toList

/-- The transport's answer to the next record: settled already, or free (R611, I4; log entry 3). -/
def State.draw (s : State) : TxOutcome :=
  match s.txDraws with
  | []     => Config.txOutcome s.drawCount
  | o :: _ => o

/-- tx_send(b, bytes): one record on TX with the transport's answer; it never blocks (R600, R614). -/
def State.txSend (s : State) (b : BusIx) (bytes : List Byte) : State :=
  { s with tx := s.tx ++ [⟨b, bytes, s.draw⟩], txDraws := s.txDraws.tail, drawCount := s.drawCount + 1 }

/-- The buses a TICK transmits, in order (R601, R606). -/
def State.txBuses (s : State) : List BusIx := if s.bus2 then [0, 1] else [0]

/-- TICK's flags with bus b's record accepted. -/
def TickFlags.sent (t : TickFlags) (b : BusIx) : TickFlags :=
  if b = 0 then { t with sentB1 := true } else { t with sentB2 := true }

/-- The send loop over the snapshots: a Reject ends it (R601, R612). -/
def sendAll (env : Bool) (snap : Vector Channels 2) : List BusIx → TickFlags → State → TickFlags × State
  | [], t, s      => (t, s)
  | b :: bs, t, s =>
    let s' := s.txSend b (txBytes env b (pack snap[b]))
    match s.draw with
    | .accept => sendAll env snap bs (t.sent b) (s'.cntInc .txOk)
    | .reject => ({ t with txErr := true }, s'.cntInc .txErr)

/-- The body of TICK (R601): suppressed by failsafe on the air side only (R603), else the snapshots of
one instant are sent (R604). -/
def State.tickBody (s : State) : TickFlags × State :=
  let s' := s.cntInc .tick
  if s.air && s.failsafe then (⟨true, false, false, false⟩, s'.cntInc .fsSkip)
  else sendAll s.txEnv s.ct s.txBuses ⟨false, false, false, false⟩ s'

/-- Only the timer's TICK clears TICK_PEND (R601, R602). -/
def State.clearTick (s : State) : State := if s.src = .timer then { s with tickPend := false } else s

/-- TICK (R601). -/
def execTick (s : State) : Host.Outcome State Fault Refusal :=
  .next (s.clearTick.tickBody.2.respond .ok [s.clearTick.tickBody.1.word])

/-- What the far end received of a record when the transport got `k` bytes of it before rejecting:
any prefix of a rejected record (R613), all of an accepted one (DEDUCED from R611, log entry 10). -/
def TxRecord.received (r : TxRecord) (k : Nat) : List Byte :=
  match r.outcome with
  | .accept => r.bytes
  | .reject => r.bytes.take k

/-- What the far ends received, record by record; the block keeps no state about it (R613, I5;
log entry 10). -/
def State.farEnd (s : State) : List (List Byte) :=
  s.tx.zipIdx.map fun rk => rk.1.received (Config.farEndBytes rk.2)

/-- The selected tick rate in Hz (R620, R132, R133). -/
def State.rate (s : State) : Nat :=
  if s.air then (if s.highSpeed then airRateHigh else airRateLow) else s.gndFreq.toNat

/-- N, the reference-clock cycles per tick (R620). -/
def ticksPer (fRef rate : Nat) : Nat := max 1 (fRef / rate)

/-- timer_fire(): TICK_PEND is set, or the firing is missed and counted (R621, R622). -/
def State.timerFire (s : State) : State :=
  if s.tickPend then s.cntInc .tickMiss else { s with tickPend := true }

/-- The timer counts: TMR_EN = 1 and the selected rate is not 0 (R620, R811). -/
def State.timerOn (s : State) : Bool := s.tmrEn && s.rate != 0

/-- TMR_CNT + 1 in 32 bits; a count that does not fit is open (R126; log entry 14). -/
def State.countUp (s : State) : Word :=
  if s.tmrCnt.toNat + 1 < 2 ^ 32 then s.tmrCnt + 1 else Config.tmrOverflow s.choices

/-- timer_cycle(): one cycle of a reference clock of fRef Hz (R620). -/
def State.timerCycle (s : State) (fRef : Nat) : State :=
  if s.timerOn then
    if s.tmrCnt.toNat + 1 ≥ ticksPer fRef s.rate then ({ s with tmrCnt := 0 } : State).timerFire
    else { s with tmrCnt := s.countUp }
  else { s with tmrCnt := 0 }

/-- A cycle of the reference clock may change something: the timer counts, or TMR_CNT is yet to be
held at 0 (R620; log entry 7). -/
def State.timerLive (s : State) : Bool := s.timerOn || s.tmrCnt != 0

end Sys2Proof.Machine
end

