-- ==== Sys2Proof/Machine/Ppm.lean ====
section
/-! DEFINITION. PpmConverter (46_ppm.md): P2S, S2P, and the commands PPM_TO_SBUS and SBUS_TO_PPM. -/

namespace Sys2Proof.Machine

/-- P2S(p) (R652); div rounds toward minus infinity (R42). -/
def p2s (p : Int) : Int :=
  if p < ppmMin ∨ p > ppmMax then 0
  else if p ≤ ppmLoKnee then 0
  else if p ≥ ppmHiKnee then chMax
  else (8 * p - 6992) / 5

/-- S2P(s) (R653). -/
def s2p (v : Int) : Int :=
  if v < 0 ∨ v > chMax then 0
  else if v = 0 then ppmMin
  else if v = chMax then ppmMax
  else (5 * v + 6996) / 8

/-- PPM_TO_SBUS (R652). -/
def execPpmToSbus (p : Word) (s : State) : Host.Outcome State Fault Refusal :=
  .next (s.respond .ok [BitVec.ofInt 32 (p2s (s32 p))])

/-- SBUS_TO_PPM (R653). -/
def execSbusToPpm (v : Word) (s : State) : Host.Outcome State Fault Refusal :=
  .next (s.respond .ok [BitVec.ofInt 32 (s2p (s32 v))])

end Sys2Proof.Machine
end

