-- ==== Sys2Proof/Machine/System.lean ====
section
/-! DEFINITION. The system commands (47_system.md): DGRAM_RX, CFG_RD, CFG_WR and NOP, and the
register-number map (R130). -/

namespace Sys2Proof.Machine

/-- The assigned registers (R130). -/
inductive Reg where
  | ctrl | gndFreq | alpha | snrMin | snrMax | rssiMin | rssiMax | status
  | fRssiLo | fRssiHi | fNoiseLo | fNoiseHi
  | cnt (c : Counter)
  deriving DecidableEq, Repr

/-- The register map: which register a number names, none if it is unassigned (R130, R165). -/
def Reg.ofNumber (n : Byte) : Option Reg :=
  match n.toNat with
  | 0x00 => some .ctrl
  | 0x01 => some .gndFreq
  | 0x02 => some .alpha
  | 0x03 => some .snrMin
  | 0x04 => some .snrMax
  | 0x05 => some .rssiMin
  | 0x06 => some .rssiMax
  | 0x07 => some .status
  | 0x08 => some .fRssiLo
  | 0x09 => some .fRssiHi
  | 0x0A => some .fNoiseLo
  | 0x0B => some .fNoiseHi
  | 0x10 => some (.cnt .tick)
  | 0x11 => some (.cnt .tickMiss)
  | 0x12 => some (.cnt .fsSkip)
  | 0x13 => some (.cnt .txOk)
  | 0x14 => some (.cnt .txErr)
  | 0x15 => some (.cnt .fsFrames)
  | 0x16 => some (.cnt .fsResync)
  | 0x17 => some (.cnt .fsDrop)
  | 0x18 => some (.cnt .dgramOk)
  | 0x19 => some (.cnt .dgramDrop)
  | 0x1A => some (.cnt .badCmd)
  | 0x1B => some (.cnt .lqObs)
  | 0x1C => some (.cnt .rstatDrop)
  | _    => none

/-- The low and high words of a filtered register (R147, R148). -/
def loWord (F : Filtered) : Word := F.extractLsb' 0 32
/-- Bits 63:32 of a filtered register (R127). -/
def hiWord (F : Filtered) : Word := F.extractLsb' 32 32

/-- What a register reads as (R710). -/
def State.readReg (s : State) : Reg → Word
  | .ctrl     => s.ctrl.setWidth 32
  | .gndFreq  => s.gndFreq.setWidth 32
  | .alpha    => s.alpha.setWidth 32
  | .snrMin   => s.snrMin
  | .snrMax   => s.snrMax
  | .rssiMin  => s.rssiMin
  | .rssiMax  => s.rssiMax
  | .status   => s.status
  | .fRssiLo  => loWord s.fRssi
  | .fRssiHi  => s.latRssiHi
  | .fNoiseLo => loWord s.fNoise
  | .fNoiseHi => s.latNoiseHi
  | .cnt c    => s.counter c

/-- What reading a register changes: the latches only (R127, R217). -/
def State.latch (s : State) : Reg → State
  | .fRssiLo  => { s with latRssiHi := hiWord s.fRssi }
  | .fNoiseLo => { s with latNoiseHi := hiWord s.fNoise }
  | .ctrl | .gndFreq | .alpha | .snrMin | .snrMax | .rssiMin | .rssiMax | .status
  | .fRssiHi | .fNoiseHi | .cnt _ => s

/-- A write to a register, none where it is read-only (R720, R130). -/
def State.writeReg (s : State) (v : Word) : Reg → Option State
  | .ctrl    => some { s with ctrl := v.setWidth 7 }
  | .gndFreq => some { s with gndFreq := v.setWidth 16 }
  | .alpha   => some { s with alpha := v.setWidth 16 }
  | .snrMin  => some { s with snrMin := v }
  | .snrMax  => some { s with snrMax := v }
  | .rssiMin => some { s with rssiMin := v }
  | .rssiMax => some { s with rssiMax := v }
  | .status | .fRssiLo | .fRssiHi | .fNoiseLo | .fNoiseHi | .cnt _ => none

/-- CFG_RD (R710). -/
def execCfgRd (n : Byte) (s : State) : Host.Outcome State Fault Refusal :=
  match Reg.ofNumber n with
  | some r => .next ((s.latch r).respond .ok [s.readReg r])
  | none   => .next (s.fail .badCmd .badReg [0])

/-- CFG_WR (R720). -/
def execCfgWr (n : Byte) (v : Word) (s : State) : Host.Outcome State Fault Refusal :=
  match (Reg.ofNumber n).bind (s.writeReg v) with
  | some s' => .next (s'.respond .ok [])
  | none    => .next (s.fail .badCmd .badReg [])

/-- The bus a type_idx names (R700). -/
def envelopeBus (t : Byte) : BusIx := if t &&& envBusBit = 0 then 0 else 1

/-- DGRAM_RX (R701): the SBUS-mode bit is checked first, then the markers (R703, R813). -/
def execDgramRx (w : Vector Word 7) (s : State) : Host.Outcome State Fault Refusal :=
  let e : Envelope := frameFromWords 26 w.toList
  if e[0] &&& envSbusBit = 0 then .next (s.fail .dgramDrop .notSbus [])
  else
    match decodeFrame (envelopeFrame e) with
    | some ch => .next (((s.writeBus (envelopeBus e[0]) ch).cntInc .dgramOk).respond .ok [])
    | none    => .next (s.fail .dgramDrop .badMarker [])

/-- NOP (R730). -/
def execNop (s : State) : Host.Outcome State Fault Refusal := .next (s.respond .ok [])

end Sys2Proof.Machine
end

