-- ==== Sys2Proof/Machine/Ports.lean ====
section
/-! DEFINITION. The ports and the arbiter (20_memory.md, 70_reset_and_hazards.md R901): how an input
lands, which agents are ready, which one moves, and the command a granted source issues. -/

namespace Sys2Proof.Machine

/-- The words that have arrived on port p and complete no transaction yet. -/
def State.portWords (s : State) (p : Nat) : List Word :=
  (s.arriving.filter fun e => e.1 == p).map Prod.snd

/-- Q[p]: the presented commands of port p, oldest first (R102). -/
def State.portQueue (s : State) (p : Nat) : List Command :=
  (s.queue.filter fun e => e.1 == p).map Prod.snd

/-- The other ports' partly arrived words. -/
def State.othersArriving (s : State) (p : Nat) : List (Nat × Word) := s.arriving.filter fun e => e.1 != p

/-- A word arrives on host port p: the command is presented once its word and all its operand words
have arrived (R300). -/
def State.hostWord (s : State) (p : Nat) (w : Word) : State :=
  match takeTransaction (s.portWords p ++ [w]) with
  | some (c, rest) =>
    { s with queue := s.queue ++ [(p, c)], arriving := s.othersArriving p ++ rest.map fun v => (p, v) }
  | none => { s with arriving := s.arriving ++ [(p, w)] }

/-- A datagram arrives on DG_RX: 26 bytes are queued, any other length is dropped and counted (R705). -/
def State.dgArrive (s : State) (d : List Byte) : State :=
  if h : d.length = 26 then { s with dgRx := s.dgRx ++ [⟨⟨d⟩, h⟩] } else s.cntInc .dgramDrop

/-- A datagram arrives on RS_RX: 2 bytes are queued, any other length is dropped and counted (R570). -/
def State.rsArrive (s : State) (d : List Byte) : State :=
  match d with
  | [r, n] => { s with rsRx := s.rsRx ++ [(r, n)] }
  | _      => s.cntInc .rstatDrop

/-- Every element at its reset value and every queue discarded (R900, R901). What has already been
observed stays observed, and what the outside world has not presented yet is still to come. -/
def State.toReset (s : State) (asserted : Bool) : State :=
  { State.reset with
    inReset := asserted, inbox := s.inbox
    responses := s.responses, tx := s.tx, fsOut := s.fsOut
    sched := s.sched, choices := s.choices, txDraws := s.txDraws, drawCount := s.drawCount
    judged := s.judged }

/-- One input lands (R201). While the reset input is asserted every other input is discarded (R901;
log entry 9). -/
def State.deliver (s : State) (e : Input) : State :=
  match e with
  | .reset true  => s.toReset true
  | .reset false => if s.inReset then s.toReset false else s
  | .hostWord p w => if s.inReset then s else s.hostWord p w
  | .serByte x => if s.inReset then s else { s with serRx := s.serRx ++ [x] }
  | .datagram d => if s.inReset then s else s.dgArrive d
  | .radioStatus d => if s.inReset then s else s.rsArrive d

/-- The sources with a command or an event ready (R221, R811). -/
def State.readySources (s : State) : List Source :=
  (s.queue.map fun e => Source.host e.1).eraseDups
    ++ (if s.serRx.isEmpty then [] else [.serRx])
    ++ (if s.dgRx.isEmpty then [] else [.dgRx])
    ++ (if s.rsRx.isEmpty then [] else [.rsRx])
    ++ (if s.tickPend then [.timer] else [])

/-- The agents that can move. While the reset input is asserted no command runs and the timer does not
count (R901). -/
def State.ready (s : State) : List Agent :=
  (if s.inbox.isEmpty then [] else [.input])
    ++ (if s.inReset then []
        else (if s.timerLive then [.clock] else []) ++ s.readySources.map Agent.grant)

/-- Some one of the agents, open which (R221, I1): where there is only one, that one. -/
def freePick (n : Nat) : List Agent → Option Agent
  | []           => none
  | [a]          => some a
  | a :: b :: as => (a :: b :: as)[Config.arbiter n % (as.length + 2)]?

/-- The agent that moves: the settled pick where it is ready, else any ready one (R221; log entry 2). -/
def State.pick (s : State) : Option Agent :=
  match s.sched with
  | []     => freePick s.choices s.ready
  | a :: _ => if a ∈ s.ready then some a else freePick s.choices s.ready

/-- One choice made. -/
def State.chosen (s : State) : State := { s with sched := s.sched.tail, choices := s.choices + 1 }

/-- The granted source's command, and the state in which it runs: taken off its queue, its source
noted for the response (R221, R320). TICK_PEND is cleared by the TICK itself (R601). -/
def State.takeCommand (s : State) : Source → Option (Command × State)
  | .host p =>
    match s.portQueue p with
    | []     => none
    | c :: _ => some (c, { s with queue := s.queue.eraseP fun e => e.1 == p, src := .host p })
  | .serRx =>
    match s.serRx with
    | []      => none
    | x :: xs => some (serCommand x, { s with serRx := xs, src := .serRx })
  | .dgRx =>
    match s.dgRx with
    | []      => none
    | d :: ds => some (dgCommand d, { s with dgRx := ds, src := .dgRx })
  | .rsRx =>
    match s.rsRx with
    | []      => none
    | d :: ds => some (rsCommand d, { s with rsRx := ds, src := .rsRx })
  | .timer => if s.tickPend then some (timerCommand, { s with src := .timer }) else none

/-- The next input lands. -/
def State.takeInput (s : State) : State :=
  match s.inbox with
  | []      => s
  | e :: es => ({ s with inbox := es } : State).deliver e

/-- The state with command c as the next of host port 0 and the arbiter's next pick on that port. -/
def State.place (s : State) (c : Command) : State :=
  { s with queue := (0, c) :: s.queue, sched := .grant (.host 0) :: s.sched, inReset := false }

end Sys2Proof.Machine
end

