-- ==== Sys2Proof/Machine/Dispatch.lean ====
section
/-! DEFINITION. The meaning of each command, one arm a constructor. -/

namespace Sys2Proof.Machine

def exec (i : Instr) (s : State) : Host.Outcome State Fault Refusal :=
  match i with
  | .nop => Sys2Proof.Machine.execNop s
  | .ctSet b ch v => Sys2Proof.Machine.execCtSet b ch v s
  | .ctGet b ch => Sys2Proof.Machine.execCtGet b ch s
  | .ctSnapshot b => Sys2Proof.Machine.execCtSnapshot b s
  | .sbusEncode v => Sys2Proof.Machine.execSbusEncode v s
  | .sbusDecode w => Sys2Proof.Machine.execSbusDecode w s
  | .fsPush x => Sys2Proof.Machine.execFsPush x s
  | .lqObserve r n => Sys2Proof.Machine.execLqObserve r n s
  | .tick => Sys2Proof.Machine.execTick s
  | .ppmToSbus p => Sys2Proof.Machine.execPpmToSbus p s
  | .sbusToPpm v => Sys2Proof.Machine.execSbusToPpm v s
  | .cfgRd n => Sys2Proof.Machine.execCfgRd n s
  | .cfgWr n v => Sys2Proof.Machine.execCfgWr n v s
  | .dgramRx w => Sys2Proof.Machine.execDgramRx w s

end Sys2Proof.Machine
end

