-- ==== Sys2Proof/Machine/Step.lean ====
section
/-! DEFINITION. One step: the picked agent moves (R221). Every step answers a next state (R804); with
nothing ready the block waits (R903, R929). -/

namespace Sys2Proof.Machine

/-- decode_and_run (R341). -/
def runCommand (c : Command) (s : State) : Host.Outcome State Fault Refusal :=
  match decode c with
  | .ok i    => exec i s
  | .error _ => .next s.illegalCommand

/-- The move of one agent. -/
def move (a : Agent) (s : State) : Host.Outcome State Fault Refusal :=
  match a with
  | .input     => .next s.takeInput
  | .clock     => .next (s.timerCycle Config.fRef)
  | .grant src =>
    match s.takeCommand src with
    | some (c, s') => runCommand c s'
    | none         => .next s

/-- One step. -/
def step (s : State) : Host.Outcome State Fault Refusal :=
  match s.pick with
  | some a => move a s.chosen
  | none   => .next s

/-- The state with the given command presented as the next of host port 0 and picked next. -/
def State.withFetchWord (s : State) (nbits w : Nat) : State := s.place (tableCommand nbits w)

end Sys2Proof.Machine
end

