-- ==== Sys2Proof/Safety.lean ====
section
/-! DEFINITION. What the claims are stated in: the invariants of the state, runs, and the weak fairness
of the arbiter that the spec assumes (R224). -/

namespace Sys2Proof.Machine

/-- R123: when FS_CNT ≥ 1, FS_BUF[0] is the start marker. -/
def CollectingStartsAtMarker (s : State) : Prop := 1 ≤ s.fsCnt.val → s.fsBuf[0] = startMarker

/-- R554: a filtered value fits: its size is at most 2^47. -/
def Bounded (F : Filtered) : Prop := -2 ^ 47 ≤ F.toInt ∧ F.toInt ≤ 2 ^ 47

/-- R554: both filtered registers are bounded. -/
def FilterBounded (s : State) : Prop := Bounded s.fRssi ∧ Bounded s.fNoise

/-- R117, R118: before the first observation the filter is unset and FAILSAFE is 0. -/
def UnseededAtReset (s : State) : Prop :=
  s.lqSeeded = false → s.fRssi = 0 ∧ s.fNoise = 0 ∧ s.failsafe = false

/-- R300: every presented command has the operand words its word announces, and what has partly
arrived on a port is no whole transaction. -/
def PortsFramed (s : State) : Prop :=
  (∀ e ∈ s.queue, e.2.complete = true) ∧ ∀ p, takeTransaction (s.portWords p) = none

/-- R27: the block has `n` host ports, and every word and command is of one of them. -/
def PortsBelow (n : Nat) (s : State) : Prop :=
  (∀ e ∈ s.queue, e.1 < n) ∧ (∀ e ∈ s.arriving, e.1 < n) ∧ ∀ p w, Input.hostWord p w ∈ s.inbox → p < n

/-- R901: while the reset input is asserted, every element is at its reset value. -/
def HeldInReset (s : State) : Prop := s.inReset = true → s = s.toReset true

/-- The invariants of the block together. -/
structure Inv (s : State) : Prop where
  marker   : CollectingStartsAtMarker s
  bounded  : FilterBounded s
  unseeded : UnseededAtReset s
  framed   : PortsFramed s
  reset    : HeldInReset s

/-- An infinite run: each state steps to the next. -/
def IsRun (r : Nat → State) : Prop := ∀ n, step (r n) = .next (r (n + 1))

/-- Weak fairness (R224): a source that stays ready is granted in the end. -/
def WeaklyFair (r : Nat → State) : Prop :=
  ∀ src n, (∀ m, n ≤ m → Agent.grant src ∈ (r m).ready) → ∃ m, n ≤ m ∧ (r m).pick = some (.grant src)

/-- The reset input stays released from step n on. -/
def StaysReleased (r : Nat → State) (n : Nat) : Prop := ∀ m, n ≤ m → (r m).inReset = false

/-- A sequence of commands run one after the other with nothing between (R222). -/
def execAll : List Instr → State → Option State
  | [], s      => some s
  | i :: is, s =>
    match exec i s with
    | .next t    => execAll is t
    | .fault _   => none
    | .refused _ => none

/-- FrameSync fed a byte sequence, one FS_PUSH a byte (R463). -/
def pushAll (xs : List Byte) (s : State) : Option State := execAll (xs.map Instr.fsPush) s

/-- Byte k of a sequence of little-endian words (R330). -/
def byteOfWords {n : Nat} (w : Vector Word n) (k : Nat) (h : k / 4 < n) : Byte :=
  (w[k / 4]).extractLsb' (8 * (k % 4)) 8

/-- A channel value read from a signed number by clamping to 0..2047 (R501). -/
def clamped (v : Int) : ChVal := BitVec.ofInt 11 (max 0 (min 2047 v))

/-- Channels as result words. -/
def wordsOf (ch : Channels) : List Word := List.ofFn fun i : Fin 16 => (ch[i]).setWidth 32

end Sys2Proof.Machine
end

