-- ==== Sys2Proof/Certificates/Slice0/Obligations.lean ====
section
/-! DEFINITION. The statements for the provers. Each docstring names the rule of the spec it
formalises. Where a meaning's result is spelt out, the counters stand in the order of their register
numbers (R151 to R163): CNT_TICK is entry 0, CNT_RSTAT_DROP entry 12. -/

open Sys2Proof Sys2Proof.Machine

/-! ### Encoding and framing -/

/-- Every command encodes to a legal, complete transaction that decodes to it (R340, R341, R361). -/
def Obligations.EncodeThenDecode : Prop :=
  ∀ i : Instr, (encode i).wellFormed = true ∧ decode (encode i) = .ok i

/-- A transaction that decodes is the encoding of what it decodes to: no bit of it is dropped. -/
def Obligations.DecodeThenEncode : Prop := ∀ (c : Command) (i : Instr), decode c = .ok i → encode i = c

/-- R350, with the decode procedure of R341: a complete transaction whose word is legal by R350 (a) to
(d) runs the command it decodes to; any other answers ILLEGAL_CMD and changes nothing except
CNT_BAD_CMD. -/
def Obligations.IllegalExactlyByRule350 : Prop :=
  ∀ (c : Command) (s : State), c.complete = true →
    (c.word.legal = true → ∃ i, decode c = .ok i ∧ runCommand c s = exec i s) ∧
    (c.word.legal = false → runCommand c s = .next { s with
      counters := s.counters.set 10 (s.counters[10] + 1)
      responses := s.responses ++ answer s.src .illegalCmd [] })

/-- Words of R361 and of the test vectors decode to what they stand for. A sanity statement. -/
def Obligations.SpecWordsDecode : Prop :=
  decode ⟨0x00000000, []⟩ = .ok .nop ∧
  decode ⟨0x01000901, [0x00000BB8]⟩ = .ok (.ctSet 1 4 3000) ∧
  decode ⟨0x00001F02, []⟩ = .ok (.ctGet 1 15) ∧
  decode ⟨0x00000103, []⟩ = .ok (.ctSnapshot 1) ∧
  decode ⟨0x000F0020, []⟩ = .ok (.fsPush 0x0F) ∧
  decode ⟨0x02000030, [0x00000087, 0x00000005]⟩ = .ok (.lqObserve 135 5) ∧
  decode ⟨0x00000040, []⟩ = .ok .tick ∧
  decode ⟨0x01000050, [0x000005DC]⟩ = .ok (.ppmToSbus 1500) ∧
  decode ⟨0x001A0060, []⟩ = .ok (.cfgRd 0x1A) ∧
  decode ⟨0x01010061, [0x00000032]⟩ = .ok (.cfgWr 1 50) ∧
  decode ⟨0x00002002, []⟩ = .error .fieldMismatch ∧
  decode ⟨0x000000FF, []⟩ = .error .noSuchOpcode

/-- No word selects two rows of the opcode map (R340). -/
def Obligations.NoWordSelectsTwoRows : Prop :=
  ∀ (w : Word) (o o' : Opcode),
    w &&& o.row.mask = o.row.match' → w &&& o'.row.mask = o'.row.match' → o = o'

/-- R355: a transaction is 1 + NOPS words long, with NOPS = w[28:24], legal or not. -/
def Obligations.TransactionLength : Prop :=
  ∀ (w : Word) (ws : List Word),
    (w.toNat / 2 ^ 24 % 32 ≤ ws.length → takeTransaction (w :: ws) =
      some (⟨w, ws.take (w.toNat / 2 ^ 24 % 32)⟩, ws.drop (w.toNat / 2 ^ 24 % 32))) ∧
    (ws.length < w.toNat / 2 ^ 24 % 32 → takeTransaction (w :: ws) = none)

/-! ### Steps, ports and the arbiter -/

/-- A step is the move of the agent picked. A granted source's command runs in the state the grant
leaves (R221, R341): exec of what it decodes to. An input lands: the step delivers the oldest of the
inbox (log entry 1, DESIGN CHOICE). With nothing to pick the step changes nothing (log entry 18,
DEDUCED). The last clause is the model's choice, not the spec's: a command placed by withFetchWord is
run by the very next step, the queue as it was before it (log entry 12, DESIGN CHOICE, with the fields
choices and src of log entries 2 and 5). -/
def Obligations.StepRunsDecodedCommand : Prop :=
  (∀ (s t : State) (src : Source) (c : Command), s.pick = some (.grant src) →
    s.chosen.takeCommand src = some (c, t) →
    step s = runCommand c t ∧ ∀ i, decode c = .ok i → step s = exec i t) ∧
  (∀ (s : State) (e : Input) (es : List Input), s.pick = some .input → s.inbox = e :: es →
    step s = .next (({ s.chosen with inbox := es } : State).deliver e)) ∧
  (∀ s : State, s.pick = none → step s = .next s) ∧
  (∀ (s : State) (nbits w : Nat) (i : Instr), decodeTableWord nbits w = some i →
    step (s.withFetchWord nbits w)
      = exec i { s with inReset := false, choices := s.choices + 1, src := .host 0 })

/-- R102: each port's commands run in the order the port presented them; taking one leaves every other
port's queue and all other state alone. -/
def Obligations.PortQueueIsFifo : Prop :=
  ∀ (s : State) (p : Nat) (c : Command) (cs : List Command), s.portQueue p = c :: cs →
    ∃ t, s.takeCommand (.host p) = some (c, t) ∧ t.portQueue p = cs ∧
      (∀ q, q ≠ p → t.portQueue q = s.portQueue q) ∧ t = { s with queue := t.queue, src := .host p }

/-- The internal ports issue their commands in arrival order: SER_RX a byte as FS_PUSH (R470), DG_RX a
datagram as DGRAM_RX with its words (R705), RS_RX its two bytes sign-extended as LQ_OBSERVE (R570), the
timer TICK (R621). -/
def Obligations.InternalPortsIssueTheirCommands : Prop :=
  ∀ s : State,
    (∀ x xs, s.serRx = x :: xs → ∃ c, s.takeCommand .serRx = some (c, { s with serRx := xs, src := .serRx }) ∧
      decode c = .ok (.fsPush x)) ∧
    (∀ d ds, s.dgRx = d :: ds → ∃ c w, s.takeCommand .dgRx = some (c, { s with dgRx := ds, src := .dgRx }) ∧
      decode c = .ok (.dgramRx w) ∧ w.toList = wordsFromFrame d.toList) ∧
    (∀ r n ds, s.rsRx = (r, n) :: ds → ∃ c, s.takeCommand .rsRx = some (c, { s with rsRx := ds, src := .rsRx }) ∧
      decode c = .ok (.lqObserve (r.signExtend 32) (n.signExtend 32))) ∧
    (s.tickPend = true → ∃ c, s.takeCommand .timer = some (c, { s with src := .timer }) ∧ decode c = .ok .tick)

/-- Inputs land on the internal ports (R470, R570, R705): a byte is queued; a datagram of the right
length is queued, and one of any other length is dropped and counted, with no other state changed. The
model's reading, not the rules': that every arrival is queued, for the queues have no bound (log entry
16, DESIGN CHOICE, unsafe), and that a wrong length is counted in the step of its arrival (log entry 17,
DEDUCED, unsafe). -/
def Obligations.InputsQueueOrDrop : Prop :=
  ∀ s : State, s.inReset = false →
    (∀ x, s.deliver (.serByte x) = { s with serRx := s.serRx ++ [x] }) ∧
    (∀ e : Envelope, s.deliver (.datagram e.toList) = { s with dgRx := s.dgRx ++ [e] }) ∧
    (∀ d : List Byte, d.length ≠ 26 →
      s.deliver (.datagram d) = { s with counters := s.counters.set 9 (s.counters[9] + 1) }) ∧
    (∀ r n, s.deliver (.radioStatus [r, n]) = { s with rsRx := s.rsRx ++ [(r, n)] }) ∧
    (∀ d : List Byte, d.length ≠ 2 →
      s.deliver (.radioStatus d) = { s with counters := s.counters.set 12 (s.counters[12] + 1) })

/-- R804: no command and no input can stop the block; every command, in any state, completes. -/
def Obligations.NothingStopsTheBlock : Prop :=
  (∀ (i : Instr) (s : State), ∃ t, exec i s = .next t) ∧ (∀ s : State, ∃ t, step s = .next t)

/-- The arbiter (R221): it picks only what is ready, it picks something whenever anything is, and
nothing ready is ruled out. -/
def Obligations.ArbiterPicksReady : Prop :=
  (∀ s a, State.pick s = some a → a ∈ s.ready) ∧
  (∀ s : State, s.ready ≠ [] → ∃ a, s.pick = some a) ∧
  (∀ (s : State) a, a ∈ s.ready → ({ s with sched := [a] } : State).pick = some a)

/-- R300: a command is presented only when its word and all its operand words have arrived; other
ports are untouched. The model's reading, not the rule's: a completed command is always appended, for the
queue has no bound (log entry 16, DESIGN CHOICE, unsafe; R102 lets a depth be bounded), and the words
before it are kept in a field of their own (log entry 11, DEDUCED). -/
def Obligations.HostWordsPresentWholeCommands : Prop :=
  ∀ (s : State) (p : Nat) (w v : Word) (vs : List Word), s.inReset = false →
    takeTransaction (s.portWords p) = none → s.portWords p ++ [w] = v :: vs →
    (vs.length = v.toNat / 2 ^ 24 % 32 →
      (s.deliver (.hostWord p w)).portQueue p = s.portQueue p ++ [⟨v, vs⟩] ∧
      (s.deliver (.hostWord p w)).portWords p = []) ∧
    (vs.length ≠ v.toNat / 2 ^ 24 % 32 →
      (s.deliver (.hostWord p w)).portQueue p = s.portQueue p ∧
      (s.deliver (.hostWord p w)).portWords p = v :: vs) ∧
    (∀ q, q ≠ p → (s.deliver (.hostWord p w)).portQueue q = s.portQueue q ∧
      (s.deliver (.hostWord p w)).portWords q = s.portWords q) ∧
    s.deliver (.hostWord p w) = { s with
      queue := (s.deliver (.hostWord p w)).queue, arriving := (s.deliver (.hostWord p w)).arriving }

/-! ### Reset -/

/-- R900: the value of every element after reset. -/
def Obligations.ResetValues : Prop :=
  (∀ (b : BusIx) (c : ChIx), (State.reset.ct[b])[c] = 0) ∧
  State.reset.fRssi = 0 ∧ State.reset.fNoise = 0 ∧ State.reset.lqSeeded = false ∧
  State.reset.failsafe = false ∧ (∀ k : Fin 25, State.reset.fsBuf[k] = 0) ∧ State.reset.fsCnt = 0 ∧
  State.reset.tickPend = false ∧ State.reset.tmrCnt = 0 ∧
  State.reset.latRssiHi = 0 ∧ State.reset.latNoiseHi = 0 ∧
  State.reset.ctrl = 0 ∧ State.reset.gndFreq = 25 ∧ State.reset.alpha = 0x4000 ∧
  State.reset.snrMin.toInt = -10 ∧ State.reset.snrMax.toInt = -5 ∧
  State.reset.rssiMin.toInt = -130 ∧ State.reset.rssiMax.toInt = -125 ∧
  State.reset.status = 0 ∧ (∀ k : Fin 13, State.reset.counters[k] = 0) ∧
  (∀ p, State.reset.portQueue p = []) ∧ (∀ p, State.reset.portWords p = []) ∧
  State.reset.serRx = [] ∧ State.reset.dgRx = [] ∧ State.reset.rsRx = []

/-- The reset input. R901: when it is released every element is at its reset value and every queue
empty; while it is asserted no command runs and the timer does not count. The model's reading, not
R901's, all of log entry 9: the reset values hold from assertion on (DEDUCED), what arrives while it is
asserted is discarded (DEDUCED), a release with reset not asserted changes nothing (DEDUCED), and the
inbox, the settled picks and draws, the counters choices, drawCount and judged and the recorded
observations are kept (DESIGN CHOICE, with log entries 1 to 4 and 8). -/
def Obligations.ResetInputDiscardsEverything : Prop :=
  (∀ s : State, s.deliver (.reset true) = { State.reset with
    inReset := true, inbox := s.inbox, responses := s.responses, tx := s.tx, fsOut := s.fsOut
    sched := s.sched, choices := s.choices, txDraws := s.txDraws, drawCount := s.drawCount
    judged := s.judged }) ∧
  (∀ s : State, s.inReset = true →
    (∀ e, (∀ b, e ≠ .reset b) → s.deliver e = s) ∧
    (∀ a, s.pick = some a → a = .input) ∧
    s.deliver (.reset false) = { State.reset with
      inReset := false, inbox := s.inbox, responses := s.responses, tx := s.tx, fsOut := s.fsOut
      sched := s.sched, choices := s.choices, txDraws := s.txDraws, drawCount := s.drawCount
      judged := s.judged }) ∧
  (∀ s : State, s.inReset = false → s.deliver (.reset false) = s)

/-! ### Invariants -/

/-- R123: collecting starts at a start marker, in every state any step can reach from one where it
does. -/
def Obligations.StepKeepsCollectingMarker : Prop :=
  ∀ s t : State, CollectingStartsAtMarker s → step s = .next t → CollectingStartsAtMarker t

/-- R554: the filtered registers stay within 2^47, so no update overflows. -/
def Obligations.StepKeepsFilterBounded : Prop :=
  ∀ s t : State, FilterBounded s → step s = .next t → FilterBounded t

/-- R300: every presented command stays whole, and what has partly arrived stays partial. -/
def Obligations.StepKeepsPortsFramed : Prop :=
  ∀ s t : State, PortsFramed s → step s = .next t → PortsFramed t

/-- R27: for every number of ports, no step invents a port. -/
def Obligations.StepKeepsPortsBelow : Prop :=
  ∀ (n : Nat) (s t : State), PortsBelow n s → step s = .next t → PortsBelow n t

/-- R117, R118: the filter stays unset until an observation. And a block held in reset stays at its
reset values, which is the model's reading and not R901's words: the values hold from assertion on (log
entry 9, DEDUCED). -/
def Obligations.StepKeepsUnsetAndHeld : Prop :=
  ∀ s t : State, step s = .next t →
    (UnseededAtReset s → UnseededAtReset t) ∧ (HeldInReset s → HeldInReset t)

/-- Every invariant holds after reset, for every number of ports. -/
def Obligations.InvariantsHoldAtReset : Prop := Inv State.reset ∧ ∀ n, PortsBelow n State.reset

/-! ### Whole-machine rules -/

/-- Which command writes which element: LinkState only LQ_OBSERVE (R115 to R118), the ChannelTable
only CT_SET, DGRAM_RX, and FS_PUSH with FS_STORE = 1 (R112), the FrameSync buffer only FS_PUSH (R120),
the configuration registers only CFG_WR (R720), the latches only CFG_RD (R127), TX only TICK. -/
def Obligations.EachElementHasItsWriters : Prop :=
  ∀ (i : Instr) (s t : State), exec i s = .next t →
    (i.opcode ≠ .lqObserve → t.fRssi = s.fRssi ∧ t.fNoise = s.fNoise ∧ t.lqSeeded = s.lqSeeded ∧
      t.failsafe = s.failsafe) ∧
    (i.opcode ≠ .ctSet → i.opcode ≠ .dgramRx → (i.opcode = .fsPush → s.ctrl.getLsbD 4 = false) →
      t.ct = s.ct) ∧
    (i.opcode ≠ .fsPush → t.fsBuf = s.fsBuf ∧ t.fsCnt = s.fsCnt ∧ t.fsOut = s.fsOut) ∧
    (i.opcode ≠ .cfgWr → t.ctrl = s.ctrl ∧ t.gndFreq = s.gndFreq ∧ t.alpha = s.alpha ∧
      t.snrMin = s.snrMin ∧ t.snrMax = s.snrMax ∧ t.rssiMin = s.rssiMin ∧ t.rssiMax = s.rssiMax) ∧
    (i.opcode ≠ .cfgRd → t.latRssiHi = s.latRssiHi ∧ t.latNoiseHi = s.latNoiseHi) ∧
    (i.opcode ≠ .tick → t.tx = s.tx ∧ t.tickPend = s.tickPend)

/-- R559: FAILSAFE changes only inside LQ_OBSERVE (a granted source's command that decodes to it, run
in the state the grant leaves) and at reset, and once it is 1 it is cleared by no
observation after which the two exit conditions do not both hold. -/
def Obligations.FailsafeDeadZone : Prop :=
  ∀ s t : State, step s = .next t →
    (t.failsafe ≠ s.failsafe →
      (s.pick = some .input ∧ ∃ b es, s.inbox = .reset b :: es) ∨
      ∃ src c u r n, s.pick = some (.grant src) ∧ s.chosen.takeCommand src = some (c, u) ∧
        decode c = .ok (.lqObserve r n) ∧ u.failsafe = s.failsafe ∧ step s = exec (.lqObserve r n) u) ∧
    (s.failsafe = true → t.failsafe = false →
      (s.pick = some .input ∧ ∃ b es, s.inbox = .reset b :: es) ∨
      (t.snrMax.toInt * 2 ^ 16 < t.fRssi.toInt - t.fNoise.toInt ∧
        t.rssiMax.toInt * 2 ^ 16 < t.fRssi.toInt))

/-- R125, R602: nothing but the reference clock sets TICK_PEND; nothing but the timer's own TICK, or
reset, clears it. -/
def Obligations.TickPendSetByClockClearedByTimer : Prop :=
  ∀ s t : State, step s = .next t →
    (s.pick ≠ some .clock → t.tickPend = true → s.tickPend = true) ∧
    (s.tickPend = true → t.tickPend = false →
      s.pick = some (.grant .timer) ∨ (s.pick = some .input ∧ ∃ b es, s.inbox = .reset b :: es))

/-- R320: a command from a host port is answered on that port by one response, a status word with the
status in bits 7:0, the opcode's result count in bits 28:24 and 0 elsewhere, then that many result
words; a command from an internal port is answered nowhere. -/
def Obligations.OneResponsePerCommand : Prop :=
  ∀ (i : Instr) (s t : State), exec i s = .next t →
    (∀ p, s.src = .host p → ∃ st rs, st ≤ 4 ∧ rs.length = i.opcode.row.nres ∧
      t.responses = s.responses ++ [⟨p, BitVec.ofNat 32 (st + rs.length * 2 ^ 24) :: rs⟩]) ∧
    ((∀ p, s.src ≠ .host p) → t.responses = s.responses)

/-! ### ChannelTable and NOP. A statement of a command's whole rule begins with its encoding: opcode,
operand count, result count, match, mask. -/

/-- R510: CT_SET stores the operand clamped to 0..2047, never wrapped, in the one slot. -/
def Obligations.CtSetStoresClamped : Prop :=
  Opcode.ctSet.row = ⟨0x01, 1, 0, 0x01000001, 0xFFFFE0FF⟩ ∧
  ∀ (b : BusIx) (c : ChIx) (v : Word) (s : State), ∃ ct' : Vector Channels 2,
    exec (.ctSet b c v) s = .next { s with ct := ct', responses := s.responses ++ answer s.src .ok [] } ∧
    (((ct'[b])[c]).toNat : Int) = max 0 (min 2047 v.toInt) ∧
    ∀ (b' : BusIx) (c' : ChIx), (b', c') ≠ (b, c) → (ct'[b'])[c'] = (s.ct[b'])[c']

/-- R511, R512, R730: CT_GET returns one slot, CT_SNAPSHOT all 16 of a bus, NOP nothing; none of them
changes any state. -/
def Obligations.TableReadsAndNop : Prop :=
  Opcode.ctGet.row = ⟨0x02, 0, 1, 0x00000002, 0xFFFFE0FF⟩ ∧
  Opcode.ctSnapshot.row = ⟨0x03, 0, 16, 0x00000003, 0xFFFFFEFF⟩ ∧
  Opcode.nop.row = ⟨0x00, 0, 0, 0x00000000, 0xFFFFFFFF⟩ ∧
  ∀ s : State,
    (∀ (b : BusIx) (c : ChIx), exec (.ctGet b c) s
      = .next { s with responses := s.responses ++ answer s.src .ok [((s.ct[b])[c]).setWidth 32] }) ∧
    (∀ b : BusIx, exec (.ctSnapshot b) s
      = .next { s with
        responses := s.responses ++ answer s.src .ok
          (List.ofFn fun c : Fin 16 => ((s.ct[b])[c]).setWidth 32) }) ∧
    exec .nop s = .next { s with responses := s.responses ++ answer s.src .ok [] }

/-- R515: after CT_SETs of distinct channels of a bus, a snapshot of it holds each written value,
clamped, and every other channel as it was. -/
def Obligations.SnapshotSeesEveryCompletedSet : Prop :=
  ∀ (b : BusIx) (sets : List (ChIx × Word)) (s : State), (sets.map Prod.fst).Nodup →
    ∃ t ch, execAll (sets.map fun cv => .ctSet b cv.1 cv.2) s = some t ∧
      exec (.ctSnapshot b) t = .next { t with responses := t.responses ++ answer t.src .ok (wordsOf ch) } ∧
      (∀ cv ∈ sets, ch[cv.1] = clamped cv.2.toInt) ∧
      (∀ c : ChIx, c ∉ sets.map Prod.fst → ch[c] = (s.ct[b])[c])

/-! ### SbusCodec -/

/-- R402, R404, R405, R406: where every bit of a frame stands, both ways, and that no byte but the
markers and the payload is read. -/
def Obligations.FrameBitLayout : Prop :=
  (∀ (ch : Channels) (i j : Nat) (hi : i < 16) (hj : j < 11),
    ((pack ch)[1 + (11 * i + j) / 8]'(by omega)).getLsbD ((11 * i + j) % 8) = (ch[i]).getLsbD j) ∧
  (∀ ch : Channels, (pack ch)[0] = 0x0F ∧ (pack ch)[23] = 0x00 ∧ (pack ch)[24] = 0x00) ∧
  (∀ (f : Frame) (i j : Nat) (hi : i < 16) (hj : j < 11),
    ((unpack f)[i]).getLsbD j = (f[1 + (11 * i + j) / 8]'(by omega)).getLsbD ((11 * i + j) % 8)) ∧
  (∀ f : Frame, decodeFrame f = if f[0] = 0x0F ∧ f[24] = 0x00 then some (unpack f) else none) ∧
  (∀ f g : Frame, (∀ k : Fin 25, k ≠ 23 → f[k] = g[k]) → decodeFrame f = decodeFrame g)

/-- R407: the round-trip laws of the codec. -/
def Obligations.CodecRoundTrip : Prop :=
  (∀ v : Channels, decodeFrame (pack v) = some v) ∧
  (∀ f : Frame, markersOk f = true → f[23] = 0x00 → pack (unpack f) = f) ∧
  (∀ v v' : Channels, pack v = pack v' → v = v')

/-- R330: words_from_frame and frame_from_words are inverse, with ceil(L/4) little-endian words padded
with 0x00, for every length. -/
def Obligations.FramesInWords : Prop :=
  ∀ (L : Nat) (f : Vector Byte L),
    (wordsFromFrame f.toList).length = (L + 3) / 4 ∧
    (∀ (j m : Nat) (hj : j < (wordsFromFrame f.toList).length), m < 4 →
      ((wordsFromFrame f.toList)[j]).extractLsb' (8 * m) 8 = (f.toList[4 * j + m]?).getD 0) ∧
    frameFromWords L (wordsFromFrame f.toList) = f

/-- R410: SBUS_ENCODE answers the 25 bytes of the frame of its clamped operands in 7 words, padding 0,
and changes no state. -/
def Obligations.SbusEncodeAnswersFrame : Prop :=
  Opcode.sbusEncode.row = ⟨0x10, 16, 7, 0x10000010, 0xFFFFFFFF⟩ ∧
  ∀ (v : Vector Word 16) (s : State), ∃ ws : Vector Word 7,
    exec (.sbusEncode v) s = .next { s with responses := s.responses ++ answer s.src .ok ws.toList } ∧
    (∀ k : Fin 25, byteOfWords ws k (by omega) = (pack (Vector.ofFn fun i => clamped (v[i]).toInt))[k]) ∧
    (ws[6]).toNat < 256

/-- R411: SBUS_DECODE answers the 16 channels when both markers hold, and BAD_MARKER with 16 zeros when
not; padding and byte 23 are ignored and no state changes. -/
def Obligations.SbusDecodeAnswersChannels : Prop :=
  Opcode.sbusDecode.row = ⟨0x11, 7, 16, 0x07000011, 0xFFFFFFFF⟩ ∧
  ∀ (w : Vector Word 7) (s : State),
    (byteOfWords w 0 (by omega) = 0x0F ∧ byteOfWords w 24 (by omega) = 0x00 →
      exec (.sbusDecode w) s = .next { s with
        responses := s.responses ++ answer s.src .ok
          (wordsOf (unpack (Vector.ofFn fun k : Fin 25 => byteOfWords w k (by omega)))) }) ∧
    (byteOfWords w 0 (by omega) ≠ 0x0F ∨ byteOfWords w 24 (by omega) ≠ 0x00 →
      exec (.sbusDecode w) s = .next { s with
        responses := s.responses ++ answer s.src .badMarker
          (List.replicate 16 0) })

/-! ### FrameSync -/

/-- R451, R452: while Searching, a byte other than 0x0F is discarded and 0x0F starts a candidate; while
Collecting, each byte before the 25th is appended, 0x0F like any other. -/
def Obligations.FsPushSearchesAndCollects : Prop :=
  ∀ (x : Byte) (s : State),
    (s.fsCnt.val = 0 → x ≠ 0x0F → exec (.fsPush x) s = .next { s with
      responses := s.responses ++ answer s.src .ok (0 :: List.replicate 16 0) }) ∧
    (s.fsCnt.val = 0 → x = 0x0F → exec (.fsPush x) s = .next { s with
      fsBuf := s.fsBuf.set 0 0x0F, fsCnt := 1
      responses := s.responses ++ answer s.src .ok (0x100 :: List.replicate 16 0) }) ∧
    (∀ h : 1 ≤ s.fsCnt.val ∧ s.fsCnt.val < 24, exec (.fsPush x) s = .next { s with
      fsBuf := s.fsBuf.set s.fsCnt.val x, fsCnt := ⟨s.fsCnt.val + 1, by omega⟩
      responses := s.responses ++ answer s.src .ok
        (BitVec.ofNat 32 ((s.fsCnt.val + 1) * 256) :: List.replicate 16 0) })

/-- R453, R454, R462: the 25th byte completes a candidate whose markers hold: it is emitted on FS_OUT,
counted, and stored in CT[FS_BUS] exactly when FS_STORE = 1, and FrameSync is Searching again. (The
candidate's byte 0 is 0x0F by the invariant of R123.) -/
def Obligations.FsPushEmits : Prop :=
  ∀ s : State, s.fsCnt.val = 24 → s.fsBuf[0] = 0x0F → ∃ buf : Frame,
    exec (.fsPush 0x00) s = .next { s with
      fsBuf := buf, fsCnt := 0, judged := s.judged + 1
      fsOut := s.fsOut ++ [⟨s.fsBuf.set 24 0x00, unpack (s.fsBuf.set 24 0x00)⟩]
      counters := s.counters.set 5 (s.counters[5] + 1)
      ct := if s.ctrl.getLsbD 4
        then s.ct.set (if s.ctrl.getLsbD 5 then 1 else 0) (unpack (s.fsBuf.set 24 0x00)) (by split <;> omega)
        else s.ct
      responses := s.responses ++ answer s.src .ok
        ((if s.ctrl.getLsbD 4 then 9 else 1) :: wordsOf (unpack (s.fsBuf.set 24 0x00))) }

/-- R461: a full candidate that fails the marker check resumes at its earliest later 0x0F, at index k:
bytes k..24 move to the front and FS_CNT is 25 - k; with no later 0x0F it is dropped. -/
def Obligations.FsPushResyncsOrDrops : Prop :=
  ∀ (x : Byte) (s : State) (f : Frame), s.fsCnt.val = 24 → f = s.fsBuf.set 24 x →
    (f[0] ≠ 0x0F ∨ f[24] ≠ 0x00) →
    (∀ k : Fin 25, 1 ≤ k.val → f[k] = 0x0F → (∀ i : Fin 25, 1 ≤ i.val → i < k → f[i] ≠ 0x0F) →
      ∃ (buf : Frame) (cnt : Fin 25), cnt.val = 25 - k.val ∧
        (∀ i (h : i + k.val < 25), buf[i] = f[i + k.val]) ∧
        exec (.fsPush x) s = .next { s with
          fsBuf := buf, fsCnt := cnt, judged := s.judged + 1
          counters := s.counters.set 6 (s.counters[6] + 1)
          responses := s.responses ++ answer s.src .ok
            (BitVec.ofNat 32 (2 + (25 - k.val) * 256) :: List.replicate 16 0) }) ∧
    ((∀ i : Fin 25, 1 ≤ i.val → f[i] ≠ 0x0F) →
      ∃ buf : Frame, exec (.fsPush x) s = .next { s with
        fsBuf := buf, fsCnt := 0, judged := s.judged + 1
        counters := s.counters.set 7 (s.counters[7] + 1)
        responses := s.responses ++ answer s.src .ok (4 :: List.replicate 16 0) })

/-- R464: a stream that starts in Searching and is a concatenation of frames that pass the marker check
has every frame emitted, in order, by the push of that frame's byte 24, with no RESYNC and no DROP: after
any number of its frames and k < 25 bytes of the next, exactly the whole frames have been emitted. -/
def Obligations.CleanStreamEmitsEveryFrame : Prop :=
  ∀ (fs : List Frame) (f : Frame) (k : Nat) (s : State), s.fsCnt.val = 0 → (∀ g ∈ fs, markersOk g = true) →
    markersOk f = true → k < 25 →
    ∃ t, pushAll (fs.flatMap (fun g => g.toList) ++ f.toList.take k) s = some t ∧ t.fsCnt.val = k ∧
      t.fsOut = s.fsOut ++ fs.map (fun g => ⟨g, unpack g⟩) ∧
      t.counters[6] = s.counters[6] ∧ t.counters[7] = s.counters[7]

/-- R465: from Searching, a burst with no 0x0F byte is discarded and the frame after it is emitted,
whatever the burst's length. -/
def Obligations.BurstWithoutMarkerLosesNoFrame : Prop :=
  ∀ (g : List Byte) (f : Frame) (s : State), s.fsCnt.val = 0 → (0x0F : Byte) ∉ g → markersOk f = true →
    (∃ u, pushAll g s = some u ∧ u.fsCnt = s.fsCnt ∧ u.fsBuf = s.fsBuf ∧ u.fsOut = s.fsOut) ∧
    ∃ t, pushAll (g ++ f.toList) s = some t ∧ t.fsCnt.val = 0 ∧ t.fsOut = s.fsOut ++ [⟨f, unpack f⟩]

/-- R120, R463: what FrameSync does with a byte depends on FS_CNT and the collected bytes only: two
states that agree on them agree on them afterwards and emit the same, whatever stands behind them in
FS_BUF. -/
def Obligations.FsPushReadsOnlyCollectedBytes : Prop :=
  ∀ (x : Byte) (s t s' t' : State), s.fsCnt = t.fsCnt →
    (∀ i : Fin 25, i < s.fsCnt → s.fsBuf[i] = t.fsBuf[i]) →
    exec (.fsPush x) s = .next s' → exec (.fsPush x) t = .next t' →
    s'.fsCnt = t'.fsCnt ∧ (∀ i : Fin 25, i < s'.fsCnt → s'.fsBuf[i] = t'.fsBuf[i]) ∧
    ∃ rs, s'.fsOut = s.fsOut ++ rs ∧ t'.fsOut = t.fsOut ++ rs

/-! ### LinkQualityMonitor -/

/-- R551, R552, R556: the first LQ_OBSERVE seeds both filters exactly with the negated samples, with no
wrap, sets LQ_SEEDED, counts, and answers FAILSAFE with the seeded-now bit; nothing else changes. -/
def Obligations.LqObserveSeeds : Prop :=
  ∀ (r n : Word) (s : State), s.lqSeeded = false → ∃ F N fs,
    exec (.lqObserve r n) s = .next { s with
      fRssi := F, fNoise := N, lqSeeded := true, failsafe := fs
      counters := s.counters.set 11 (s.counters[11] + 1)
      responses := s.responses ++ answer s.src .ok [if fs then 3 else 2] } ∧
    F.toInt = -r.toInt * 2 ^ 16 ∧ N.toInt = -n.toInt * 2 ^ 16

/-- R553, R554, R556: each later LQ_OBSERVE moves each filtered register by ((t·Q - F)·ALPHA) div Q,
rounded down, exactly, and the new value lies between the old one and t·Q, in every state. -/
def Obligations.LqObserveUpdates : Prop :=
  ∀ (r n : Word) (s : State), s.lqSeeded = true → ∃ F N fs,
    exec (.lqObserve r n) s = .next { s with
      fRssi := F, fNoise := N, failsafe := fs
      counters := s.counters.set 11 (s.counters[11] + 1)
      responses := s.responses ++ answer s.src .ok [if fs then 1 else 0] } ∧
    F.toInt = s.fRssi.toInt + Int.fdiv ((-r.toInt * 2 ^ 16 - s.fRssi.toInt) * s.alpha.toNat) (2 ^ 16) ∧
    N.toInt = s.fNoise.toInt + Int.fdiv ((-n.toInt * 2 ^ 16 - s.fNoise.toInt) * s.alpha.toNat) (2 ^ 16) ∧
    min s.fRssi.toInt (-r.toInt * 2 ^ 16) ≤ F.toInt ∧ F.toInt ≤ max s.fRssi.toInt (-r.toInt * 2 ^ 16) ∧
    min s.fNoise.toInt (-n.toInt * 2 ^ 16) ≤ N.toInt ∧ N.toInt ≤ max s.fNoise.toInt (-n.toInt * 2 ^ 16)

/-- R557: the hysteresis after every LQ_OBSERVE, in any state: enter wins, then exit, else unchanged;
all comparisons strict and exact. -/
def Obligations.HysteresisDecides : Prop :=
  ∀ (r n : Word) (s : State), ∃ t, exec (.lqObserve r n) s = .next t ∧
    (t.fRssi.toInt - t.fNoise.toInt < s.snrMin.toInt * 2 ^ 16 ∨ t.fRssi.toInt < s.rssiMin.toInt * 2 ^ 16 →
      t.failsafe = true) ∧
    (¬(t.fRssi.toInt - t.fNoise.toInt < s.snrMin.toInt * 2 ^ 16 ∨
        t.fRssi.toInt < s.rssiMin.toInt * 2 ^ 16) →
      (t.fRssi.toInt - t.fNoise.toInt > s.snrMax.toInt * 2 ^ 16 ∧
          t.fRssi.toInt > s.rssiMax.toInt * 2 ^ 16 → t.failsafe = false) ∧
      (¬(t.fRssi.toInt - t.fNoise.toInt > s.snrMax.toInt * 2 ^ 16 ∧
          t.fRssi.toInt > s.rssiMax.toInt * 2 ^ 16) → t.failsafe = s.failsafe))

/-! ### TransmitScheduler -/

/-- R603: in the air role with FAILSAFE = 1 a TICK sends nothing on any bus and counts CNT_FS_SKIP. -/
def Obligations.TickSuppressedByFailsafe : Prop :=
  ∀ s : State, s.ctrl.getLsbD 0 = true → s.failsafe = true →
    exec .tick s = .next { s with
      tickPend := if s.src = .timer then false else s.tickPend
      counters := (s.counters.set 0 (s.counters[0] + 1)).set 2 (s.counters[2] + 1)
      responses := s.responses ++ answer s.src .ok [1] }

/-- R601, R605, R611 with BUS2 = 0: one record, the frame or envelope of bus 1, and the transport's
answer decides the counter and the result. -/
def Obligations.TickSendsOneBus : Prop :=
  ∀ (s : State) (bytes : List Byte), ¬(s.ctrl.getLsbD 0 = true ∧ s.failsafe = true) →
    s.ctrl.getLsbD 2 = false →
    bytes = (if s.ctrl.getLsbD 6 then [(0x20 : Byte)] else []) ++ (pack s.ct[0]).toList →
    (s.draw = .accept → exec .tick s = .next { s with
      tickPend := if s.src = .timer then false else s.tickPend
      counters := (s.counters.set 0 (s.counters[0] + 1)).set 3 (s.counters[3] + 1)
      tx := s.tx ++ [⟨0, bytes, .accept⟩], txDraws := s.txDraws.tail, drawCount := s.drawCount + 1
      responses := s.responses ++ answer s.src .ok [2] }) ∧
    (s.draw = .reject → exec .tick s = .next { s with
      tickPend := if s.src = .timer then false else s.tickPend
      counters := (s.counters.set 0 (s.counters[0] + 1)).set 4 (s.counters[4] + 1)
      tx := s.tx ++ [⟨0, bytes, .reject⟩], txDraws := s.txDraws.tail, drawCount := s.drawCount + 1
      responses := s.responses ++ answer s.src .ok [8] })

/-- R601, R604, R605, R606, R612 with BUS2 = 1: bus 1 first, then bus 2; a Reject skips the rest of the
tick. The second draw is the one that follows the first record. -/
def Obligations.TickSendsTwoBuses : Prop :=
  ∀ (s : State) (bytes₁ bytes₂ : List Byte) (o₂ : TxOutcome),
    ¬(s.ctrl.getLsbD 0 = true ∧ s.failsafe = true) → s.ctrl.getLsbD 2 = true →
    bytes₁ = (if s.ctrl.getLsbD 6 then [(0x20 : Byte)] else []) ++ (pack s.ct[0]).toList →
    bytes₂ = (if s.ctrl.getLsbD 6 then [(0x21 : Byte)] else []) ++ (pack s.ct[1]).toList →
    o₂ = ({ s with txDraws := s.txDraws.tail, drawCount := s.drawCount + 1 } : State).draw →
    (s.draw = .reject → exec .tick s = .next { s with
      tickPend := if s.src = .timer then false else s.tickPend
      counters := (s.counters.set 0 (s.counters[0] + 1)).set 4 (s.counters[4] + 1)
      tx := s.tx ++ [⟨0, bytes₁, .reject⟩], txDraws := s.txDraws.tail, drawCount := s.drawCount + 1
      responses := s.responses ++ answer s.src .ok [8] }) ∧
    (s.draw = .accept → o₂ = .accept → exec .tick s = .next { s with
      tickPend := if s.src = .timer then false else s.tickPend
      counters := (s.counters.set 0 (s.counters[0] + 1)).set 3 (s.counters[3] + 2)
      tx := s.tx ++ [⟨0, bytes₁, .accept⟩, ⟨1, bytes₂, .accept⟩]
      txDraws := s.txDraws.tail.tail, drawCount := s.drawCount + 2
      responses := s.responses ++ answer s.src .ok [6] }) ∧
    (s.draw = .accept → o₂ = .reject → exec .tick s = .next { s with
      tickPend := if s.src = .timer then false else s.tickPend
      counters := ((s.counters.set 0 (s.counters[0] + 1)).set 3 (s.counters[3] + 1)).set 4 (s.counters[4] + 1)
      tx := s.tx ++ [⟨0, bytes₁, .accept⟩, ⟨1, bytes₂, .reject⟩]
      txDraws := s.txDraws.tail.tail, drawCount := s.drawCount + 2
      responses := s.responses ++ answer s.src .ok [10] })

/-- R613: of a rejected record the far end has a prefix, each length from 0 to the whole being possible,
and the view State.farEnd, which holds one entry a record of TX, is of that form. That the far end has
all of an accepted record is the model's reading, not R611's words, which say that the transport took it
(log entry 10, DEDUCED, unsafe). -/
def Obligations.FarEndHasAPrefix : Prop :=
  (∀ (r : TxRecord), (r.outcome = .accept → ∀ k, r.received k = r.bytes) ∧
    (r.outcome = .reject → (∀ k, r.received k <+: r.bytes) ∧
      ∀ n, n ≤ r.bytes.length → ∃ k, (r.received k).length = n)) ∧
  (∀ s : State, s.farEnd.length = s.tx.length ∧
    ∀ (i : Nat) (r : TxRecord), s.tx[i]? = some r → ∃ b, s.farEnd[i]? = some b ∧
      (r.outcome = .accept → b = r.bytes) ∧ (r.outcome = .reject → b <+: r.bytes))

/-- R620, R621, R622: one cycle of the reference clock, for every F_REF; a firing sets TICK_PEND or, if
it is set, is missed and counted. A step of the clock is such a cycle, and a clock that the model leaves
out of the ready agents would change nothing (log entry 7, DESIGN CHOICE). -/
def Obligations.TimerCycle : Prop :=
  (∀ (s : State) (fRef rate : Nat),
    rate = (if s.ctrl.getLsbD 0 then (if s.ctrl.getLsbD 1 then 140 else 70) else s.gndFreq.toNat) →
    (s.ctrl.getLsbD 3 = false ∨ rate = 0 → s.timerCycle fRef = { s with tmrCnt := 0 }) ∧
    (s.ctrl.getLsbD 3 = true → rate ≠ 0 →
      (s.tmrCnt.toNat + 1 ≥ max 1 (fRef / rate) → s.tickPend = false →
        s.timerCycle fRef = { s with tmrCnt := 0, tickPend := true }) ∧
      (s.tmrCnt.toNat + 1 ≥ max 1 (fRef / rate) → s.tickPend = true →
        s.timerCycle fRef = { s with tmrCnt := 0, counters := s.counters.set 1 (s.counters[1] + 1) }) ∧
      (s.tmrCnt.toNat + 1 < max 1 (fRef / rate) → s.tmrCnt.toNat + 1 < 2 ^ 32 →
        s.timerCycle fRef = { s with tmrCnt := s.tmrCnt + 1 }))) ∧
  (∀ s : State, s.pick = some .clock → step s = .next (s.chosen.timerCycle Config.fRef)) ∧
  (∀ (s : State) (fRef : Nat), s.timerLive = false → s.timerCycle fRef = s)

/-- R620: with the timer running from TMR_CNT = 0 the first firing comes at cycle N exactly, and
nothing but TMR_CNT changes before it. -/
def Obligations.TimerFiresAtCycleN : Prop :=
  ∀ (s : State) (fRef rate : Nat),
    rate = (if s.ctrl.getLsbD 0 then (if s.ctrl.getLsbD 1 then 140 else 70) else s.gndFreq.toNat) →
    s.ctrl.getLsbD 3 = true → rate ≠ 0 → s.tmrCnt = 0 → s.tickPend = false →
    max 1 (fRef / rate) ≤ 2 ^ 32 →
    (∀ k, k < max 1 (fRef / rate) →
      (fun u : State => u.timerCycle fRef)^[k] s = { s with tmrCnt := BitVec.ofNat 32 k }) ∧
    (fun u : State => u.timerCycle fRef)^[max 1 (fRef / rate)] s = { s with tickPend := true }

/-! ### PpmConverter -/

/-- R652, R653: the results of both conversions, and that they change no state. -/
def Obligations.PpmConversions : Prop :=
  Opcode.ppmToSbus.row = ⟨0x50, 1, 1, 0x01000050, 0xFFFFFFFF⟩ ∧
  Opcode.sbusToPpm.row = ⟨0x51, 1, 1, 0x01000051, 0xFFFFFFFF⟩ ∧
  (∀ (p : Word) (s : State), ∃ v : Word,
    exec (.ppmToSbus p) s = .next { s with responses := s.responses ++ answer s.src .ok [v] } ∧
    (v.toNat : Int) = if p.toInt < 800 ∨ p.toInt > 2200 then 0 else if p.toInt ≤ 874 then 0
      else if p.toInt ≥ 2153 then 2047 else Int.fdiv (8 * p.toInt - 6992) 5) ∧
  (∀ (q : Word) (s : State), ∃ v : Word,
    exec (.sbusToPpm q) s = .next { s with responses := s.responses ++ answer s.src .ok [v] } ∧
    (v.toNat : Int) = if q.toInt < 0 ∨ q.toInt > 2047 then 0 else if q.toInt = 0 then 800
      else if q.toInt = 2047 then 2200 else Int.fdiv (5 * q.toInt + 6996) 8)

/-- R654: the integer forms equal the source's formulas in exact rational arithmetic. -/
def Obligations.PpmFormulasAreExact : Prop :=
  (∀ p : Int, 875 ≤ p → p ≤ 2152 → p2s p = ⌈((p : ℚ) - 874 - 1 / 2) / (5 / 8)⌉) ∧
  (∀ v : Int, 1 ≤ v → v ≤ 2046 → s2p v = ⌊(v : ℚ) * (5 / 8) + 874 + 1 / 2⌋)

/-- R655, and the bound of R656: the two round trips. -/
def Obligations.PpmRoundTrips : Prop :=
  (∀ x : Int, 875 ≤ x → x ≤ 2152 → s2p (p2s x) = x) ∧
  (∀ v : Int, 0 ≤ v → v ≤ 2047 → |p2s (s2p v) - v| ≤ 1)

/-- R658: both conversions are monotone on their in-range inputs. -/
def Obligations.PpmMonotone : Prop :=
  (∀ p q : Int, 800 ≤ p → p ≤ q → q ≤ 2200 → p2s p ≤ p2s q) ∧
  (∀ v w : Int, 0 ≤ v → v ≤ w → w ≤ 2047 → s2p v ≤ s2p w)

/-! ### System commands -/

/-- R710: what CFG_RD of each register number answers and what it changes: the latches on the two LO
reads, CNT_BAD_CMD on an unassigned number, and nothing else. -/
def Obligations.CfgRdAnswers : Prop :=
  Opcode.cfgRd.row = ⟨0x60, 0, 1, 0x00000060, 0xFF00FFFF⟩ ∧
  ∀ s : State,
    exec (.cfgRd 0x00) s = .next { s with responses := s.responses ++ answer s.src .ok [s.ctrl.setWidth 32] } ∧
    exec (.cfgRd 0x01) s = .next { s with responses := s.responses ++ answer s.src .ok [s.gndFreq.setWidth 32] } ∧
    exec (.cfgRd 0x02) s = .next { s with responses := s.responses ++ answer s.src .ok [s.alpha.setWidth 32] } ∧
    exec (.cfgRd 0x03) s = .next { s with responses := s.responses ++ answer s.src .ok [s.snrMin] } ∧
    exec (.cfgRd 0x04) s = .next { s with responses := s.responses ++ answer s.src .ok [s.snrMax] } ∧
    exec (.cfgRd 0x05) s = .next { s with responses := s.responses ++ answer s.src .ok [s.rssiMin] } ∧
    exec (.cfgRd 0x06) s = .next { s with responses := s.responses ++ answer s.src .ok [s.rssiMax] } ∧
    exec (.cfgRd 0x07) s = .next { s with
      responses := s.responses ++ answer s.src .ok
        [BitVec.ofNat 32 (s.failsafe.toNat + 2 * s.lqSeeded.toNat + 4 * (decide (1 ≤ s.fsCnt.val)).toNat
        + 8 * s.tickPend.toNat + 256 * s.fsCnt.val)] } ∧
    exec (.cfgRd 0x08) s = .next { s with
      latRssiHi := s.fRssi.extractLsb' 32 32
      responses := s.responses ++ answer s.src .ok [s.fRssi.extractLsb' 0 32] } ∧
    exec (.cfgRd 0x09) s = .next { s with responses := s.responses ++ answer s.src .ok [s.latRssiHi] } ∧
    exec (.cfgRd 0x0A) s = .next { s with
      latNoiseHi := s.fNoise.extractLsb' 32 32
      responses := s.responses ++ answer s.src .ok [s.fNoise.extractLsb' 0 32] } ∧
    exec (.cfgRd 0x0B) s = .next { s with responses := s.responses ++ answer s.src .ok [s.latNoiseHi] } ∧
    (∀ k : Fin 13, exec (.cfgRd (BitVec.ofNat 8 (0x10 + k.val))) s
      = .next { s with responses := s.responses ++ answer s.src .ok [s.counters[k]] }) ∧
    (∀ n : Byte, (0x0C ≤ n.toNat ∧ n.toNat ≤ 0x0F) ∨ 0x1D ≤ n.toNat → exec (.cfgRd n) s
      = .next { s with
        counters := s.counters.set 10 (s.counters[10] + 1)
        responses := s.responses ++ answer s.src .badReg [0] })

/-- R720: what CFG_WR of each register number changes; every number but 0x00 to 0x06 is refused with
BAD_REG and changes nothing except CNT_BAD_CMD. -/
def Obligations.CfgWrWrites : Prop :=
  Opcode.cfgWr.row = ⟨0x61, 1, 0, 0x01000061, 0xFF00FFFF⟩ ∧
  ∀ (v : Word) (s : State),
    (∃ c, exec (.cfgWr 0x00 v) s = .next { s with
      ctrl := c, responses := s.responses ++ answer s.src .ok [] } ∧ c.setWidth 32 = v &&& 0x7F) ∧
    (∃ c, exec (.cfgWr 0x01 v) s = .next { s with
      gndFreq := c, responses := s.responses ++ answer s.src .ok [] } ∧ c.setWidth 32 = v &&& 0xFFFF) ∧
    (∃ c, exec (.cfgWr 0x02 v) s = .next { s with
      alpha := c, responses := s.responses ++ answer s.src .ok [] } ∧ c.setWidth 32 = v &&& 0xFFFF) ∧
    exec (.cfgWr 0x03 v) s = .next { s with snrMin := v, responses := s.responses ++ answer s.src .ok [] } ∧
    exec (.cfgWr 0x04 v) s = .next { s with snrMax := v, responses := s.responses ++ answer s.src .ok [] } ∧
    exec (.cfgWr 0x05 v) s = .next { s with rssiMin := v, responses := s.responses ++ answer s.src .ok [] } ∧
    exec (.cfgWr 0x06 v) s = .next { s with rssiMax := v, responses := s.responses ++ answer s.src .ok [] } ∧
    (∀ n : Byte, 0x07 ≤ n.toNat → exec (.cfgWr n v) s = .next { s with
      counters := s.counters.set 10 (s.counters[10] + 1)
      responses := s.responses ++ answer s.src .badReg [] })

/-- R711: a CFG_RD of a LO register, then any commands that do not read that LO register, then a CFG_RD
of the HI register, return the 64-bit value as it stood at the LO read. -/
def Obligations.LatchedPairIsOneValue : Prop :=
  ∀ (s : State) (is : List Instr),
    ((∀ i ∈ is, i ≠ .cfgRd 0x08) → ∃ t u lo hi,
      exec (.cfgRd 0x08) s = .next t ∧ t.responses = s.responses ++ answer s.src .ok [lo] ∧
      execAll is t = some u ∧
      exec (.cfgRd 0x09) u = .next { u with responses := u.responses ++ answer u.src .ok [hi] } ∧
      hi ++ lo = s.fRssi) ∧
    ((∀ i ∈ is, i ≠ .cfgRd 0x0A) → ∃ t u lo hi,
      exec (.cfgRd 0x0A) s = .next t ∧ t.responses = s.responses ++ answer s.src .ok [lo] ∧
      execAll is t = some u ∧
      exec (.cfgRd 0x0B) u = .next { u with responses := u.responses ++ answer u.src .ok [hi] } ∧
      hi ++ lo = s.fNoise)

/-- R701: DGRAM_RX. The SBUS-mode bit is checked first, then the markers; an accepted envelope writes
all 16 channels of the bus its bit 0 names, and a refused one changes no channel. -/
def Obligations.DgramRxChecksAndWrites : Prop :=
  Opcode.dgramRx.row = ⟨0x70, 7, 0, 0x07000070, 0xFFFFFFFF⟩ ∧
  ∀ (w : Vector Word 7) (s : State) (e : Envelope) (f : Frame),
    e = (Vector.ofFn fun k : Fin 26 => byteOfWords w k (by omega)) →
    f = (Vector.ofFn fun k : Fin 25 => e[k.val + 1]) →
    ((e[0]).getLsbD 5 = false → exec (.dgramRx w) s = .next { s with
      counters := s.counters.set 9 (s.counters[9] + 1)
      responses := s.responses ++ answer s.src .notSbus [] }) ∧
    ((e[0]).getLsbD 5 = true → (f[0] ≠ 0x0F ∨ f[24] ≠ 0x00) → exec (.dgramRx w) s = .next { s with
      counters := s.counters.set 9 (s.counters[9] + 1)
      responses := s.responses ++ answer s.src .badMarker [] }) ∧
    ((e[0]).getLsbD 5 = true → f[0] = 0x0F → f[24] = 0x00 → exec (.dgramRx w) s = .next { s with
      ct := s.ct.set (if (e[0]).getLsbD 0 then 1 else 0) (unpack f) (by split <;> omega)
      counters := s.counters.set 8 (s.counters[8] + 1)
      responses := s.responses ++ answer s.src .ok [] })

/-! ### Liveness under the arbiter's weak fairness -/

/-- R224, R623: in a weakly fair run that is not reset, a pending tick runs in the end: a later step is
TICK in the state the timer's grant leaves. -/
def Obligations.PendingTickRuns : Prop :=
  ∀ (r : Nat → State) (n : Nat), IsRun r → WeaklyFair r → StaysReleased r n → (r n).tickPend = true →
    ∃ m, n ≤ m ∧ (r m).pick = some (.grant .timer) ∧
      step (r m) = exec .tick { (r m).chosen with src := .timer }

/-- R224: in a weakly fair run that is not reset, the command at the head of a port's queue runs in the
end: a later step grants the port, takes that command and runs it in the state the grant leaves. -/
def Obligations.PresentedCommandRuns : Prop :=
  ∀ (r : Nat → State) (n p : Nat) (c : Command) (cs : List Command), IsRun r → WeaklyFair r →
    StaysReleased r n → (r n).portQueue p = c :: cs →
    ∃ m t, n ≤ m ∧ (r m).pick = some (.grant (.host p)) ∧
      (r m).chosen.takeCommand (.host p) = some (c, t) ∧ step (r m) = runCommand c t
end

