-- ==== Sys2Proof/Laws/Digits.lean ====
section
/-! SUPPORT. The digit sums behind frames and words: a sum and its digits are inverses, and where each
bit stands. -/

namespace Sys2Proof.Machine
theorem fromDigits_nil (w : Nat) : fromDigits w [] = 0 := rfl
theorem fromDigits_cons (w : Nat) (d : BitVec w) (ds) : fromDigits w (d :: ds) = d.toNat + 2 ^ w * fromDigits w ds := rfl

theorem fromDigits_lt (w : Nat) (ds : List (BitVec w)) : fromDigits w ds < 2 ^ (w * ds.length) := by
  induction ds with
  | nil => simp [fromDigits_nil]
  | cons d ds ih =>
    have hd := d.isLt
    rw [fromDigits_cons, List.length_cons, Nat.mul_succ, Nat.add_comm, Nat.pow_add, Nat.mul_comm (2 ^ (w * ds.length))]
    have : 2 ^ w * (fromDigits w ds + 1) ≤ 2 ^ w * 2 ^ (w * ds.length) := Nat.mul_le_mul_left _ ih
    rw [Nat.mul_add] at this
    omega

theorem fromDigits_shift (w : Nat) (ds : List (BitVec w)) (i : Nat) :
    fromDigits w ds >>> (w * i) = fromDigits w (ds.drop i) := by
  induction i generalizing ds with
  | zero => simp
  | succ i ih =>
    cases ds with
    | nil => simp [fromDigits_nil]
    | cons d ds =>
      have hd := d.isLt
      rw [List.drop_succ_cons, ← ih, Nat.mul_succ, Nat.add_comm, Nat.shiftRight_add, fromDigits_cons]
      congr 1
      rw [Nat.shiftRight_eq_div_pow, Nat.add_mul_div_left _ _ (Nat.two_pow_pos w), Nat.div_eq_of_lt hd, Nat.zero_add]

theorem ofNat_fromDigits_drop (w : Nat) (ds : List (BitVec w)) (i : Nat) (h : i < ds.length) :
    BitVec.ofNat w (fromDigits w (ds.drop i)) = ds[i] := by
  rw [List.drop_eq_getElem_cons h, fromDigits_cons]
  apply BitVec.eq_of_toNat_eq
  simp [Nat.add_mul_mod_self_left]

@[simp] theorem toDigits_getElem (w n S i : Nat) (h : i < n) :
    (toDigits w n S)[i] = BitVec.ofNat w (S >>> (w * i)) := by simp [toDigits]

theorem toDigits_fromDigits (w n : Nat) (v : Vector (BitVec w) n) : toDigits w n (fromDigits w v.toList) = v := by
  refine Vector.ext fun i hi => ?_
  rw [toDigits_getElem, fromDigits_shift, ofNat_fromDigits_drop _ _ _ (by simpa using hi)]
  simp

theorem fromDigits_toDigits (w n S : Nat) : fromDigits w (toDigits w n S).toList = S % 2 ^ (w * n) := by
  induction n generalizing S with
  | zero =>
    have h : (toDigits w 0 S).toList = [] := List.eq_nil_of_length_eq_zero (by simp)
    rw [h, fromDigits_nil, Nat.mul_zero, Nat.pow_zero, Nat.mod_one]
  | succ n ih =>
    have h : (toDigits w (n + 1) S).toList = BitVec.ofNat w S :: (toDigits w n (S >>> w)).toList := by
      simp only [toDigits]
      rw [Vector.toList_ofFn, Vector.toList_ofFn, List.ofFn_succ]
      simp [Nat.mul_add, Nat.shiftRight_add, Nat.add_comm]
    rw [h, fromDigits_cons, ih, BitVec.toNat_ofNat, Nat.shiftRight_eq_div_pow, Nat.mul_succ, Nat.add_comm (w * n), Nat.pow_add]
    rw [Nat.mod_mul]

theorem fromDigits_testBit (w : Nat) (hw : 0 < w) (ds : List (BitVec w)) (k : Nat) :
    (fromDigits w ds).testBit k = (ds[k / w]?.getD 0).getLsbD (k % w) := by
  have h1 : (fromDigits w ds).testBit k = (fromDigits w ds >>> (w * (k / w))).testBit (k % w) := by
    rw [Nat.testBit_shiftRight, Nat.div_add_mod]
  rw [h1, fromDigits_shift]
  by_cases h : k / w < ds.length
  · rw [List.getElem?_eq_getElem h, Option.getD_some, ← ofNat_fromDigits_drop w ds _ h, BitVec.getLsbD_ofNat]
    simp [Nat.mod_lt _ hw]
  · rw [List.drop_eq_nil_of_le (by omega), List.getElem?_eq_none (by omega)]
    simp [fromDigits_nil]
end Sys2Proof.Machine
end

