-- ==== Sys2Proof/Laws/State.lean ====
section
/-! SUPPORT. One lemma per field per named update of State: what the update leaves in that field. -/

namespace Sys2Proof.Machine

variable (s : State)

section writeSlot
variable (b : BusIx) (c : ChIx) (v : ChVal)
@[simp] theorem State.writeSlot_ct : (s.writeSlot b c v).ct = s.ct.set b ((s.ct[b]).set c v) := rfl
@[simp] theorem State.writeSlot_fRssi : (s.writeSlot b c v).fRssi = s.fRssi := rfl
@[simp] theorem State.writeSlot_fNoise : (s.writeSlot b c v).fNoise = s.fNoise := rfl
@[simp] theorem State.writeSlot_lqSeeded : (s.writeSlot b c v).lqSeeded = s.lqSeeded := rfl
@[simp] theorem State.writeSlot_failsafe : (s.writeSlot b c v).failsafe = s.failsafe := rfl
@[simp] theorem State.writeSlot_fsBuf : (s.writeSlot b c v).fsBuf = s.fsBuf := rfl
@[simp] theorem State.writeSlot_fsCnt : (s.writeSlot b c v).fsCnt = s.fsCnt := rfl
@[simp] theorem State.writeSlot_tickPend : (s.writeSlot b c v).tickPend = s.tickPend := rfl
@[simp] theorem State.writeSlot_tmrCnt : (s.writeSlot b c v).tmrCnt = s.tmrCnt := rfl
@[simp] theorem State.writeSlot_latRssiHi : (s.writeSlot b c v).latRssiHi = s.latRssiHi := rfl
@[simp] theorem State.writeSlot_latNoiseHi : (s.writeSlot b c v).latNoiseHi = s.latNoiseHi := rfl
@[simp] theorem State.writeSlot_ctrl : (s.writeSlot b c v).ctrl = s.ctrl := rfl
@[simp] theorem State.writeSlot_gndFreq : (s.writeSlot b c v).gndFreq = s.gndFreq := rfl
@[simp] theorem State.writeSlot_alpha : (s.writeSlot b c v).alpha = s.alpha := rfl
@[simp] theorem State.writeSlot_snrMin : (s.writeSlot b c v).snrMin = s.snrMin := rfl
@[simp] theorem State.writeSlot_snrMax : (s.writeSlot b c v).snrMax = s.snrMax := rfl
@[simp] theorem State.writeSlot_rssiMin : (s.writeSlot b c v).rssiMin = s.rssiMin := rfl
@[simp] theorem State.writeSlot_rssiMax : (s.writeSlot b c v).rssiMax = s.rssiMax := rfl
@[simp] theorem State.writeSlot_counters : (s.writeSlot b c v).counters = s.counters := rfl
@[simp] theorem State.writeSlot_queue : (s.writeSlot b c v).queue = s.queue := rfl
@[simp] theorem State.writeSlot_arriving : (s.writeSlot b c v).arriving = s.arriving := rfl
@[simp] theorem State.writeSlot_serRx : (s.writeSlot b c v).serRx = s.serRx := rfl
@[simp] theorem State.writeSlot_dgRx : (s.writeSlot b c v).dgRx = s.dgRx := rfl
@[simp] theorem State.writeSlot_rsRx : (s.writeSlot b c v).rsRx = s.rsRx := rfl
@[simp] theorem State.writeSlot_inReset : (s.writeSlot b c v).inReset = s.inReset := rfl
@[simp] theorem State.writeSlot_responses : (s.writeSlot b c v).responses = s.responses := rfl
@[simp] theorem State.writeSlot_tx : (s.writeSlot b c v).tx = s.tx := rfl
@[simp] theorem State.writeSlot_fsOut : (s.writeSlot b c v).fsOut = s.fsOut := rfl
@[simp] theorem State.writeSlot_inbox : (s.writeSlot b c v).inbox = s.inbox := rfl
@[simp] theorem State.writeSlot_sched : (s.writeSlot b c v).sched = s.sched := rfl
@[simp] theorem State.writeSlot_choices : (s.writeSlot b c v).choices = s.choices := rfl
@[simp] theorem State.writeSlot_txDraws : (s.writeSlot b c v).txDraws = s.txDraws := rfl
@[simp] theorem State.writeSlot_drawCount : (s.writeSlot b c v).drawCount = s.drawCount := rfl
@[simp] theorem State.writeSlot_src : (s.writeSlot b c v).src = s.src := rfl
@[simp] theorem State.writeSlot_judged : (s.writeSlot b c v).judged = s.judged := rfl
end writeSlot

section writeBus
variable (b : BusIx) (ch : Channels)
@[simp] theorem State.writeBus_ct : (s.writeBus b ch).ct = s.ct.set b ch := rfl
@[simp] theorem State.writeBus_fRssi : (s.writeBus b ch).fRssi = s.fRssi := rfl
@[simp] theorem State.writeBus_fNoise : (s.writeBus b ch).fNoise = s.fNoise := rfl
@[simp] theorem State.writeBus_lqSeeded : (s.writeBus b ch).lqSeeded = s.lqSeeded := rfl
@[simp] theorem State.writeBus_failsafe : (s.writeBus b ch).failsafe = s.failsafe := rfl
@[simp] theorem State.writeBus_fsBuf : (s.writeBus b ch).fsBuf = s.fsBuf := rfl
@[simp] theorem State.writeBus_fsCnt : (s.writeBus b ch).fsCnt = s.fsCnt := rfl
@[simp] theorem State.writeBus_tickPend : (s.writeBus b ch).tickPend = s.tickPend := rfl
@[simp] theorem State.writeBus_tmrCnt : (s.writeBus b ch).tmrCnt = s.tmrCnt := rfl
@[simp] theorem State.writeBus_latRssiHi : (s.writeBus b ch).latRssiHi = s.latRssiHi := rfl
@[simp] theorem State.writeBus_latNoiseHi : (s.writeBus b ch).latNoiseHi = s.latNoiseHi := rfl
@[simp] theorem State.writeBus_ctrl : (s.writeBus b ch).ctrl = s.ctrl := rfl
@[simp] theorem State.writeBus_gndFreq : (s.writeBus b ch).gndFreq = s.gndFreq := rfl
@[simp] theorem State.writeBus_alpha : (s.writeBus b ch).alpha = s.alpha := rfl
@[simp] theorem State.writeBus_snrMin : (s.writeBus b ch).snrMin = s.snrMin := rfl
@[simp] theorem State.writeBus_snrMax : (s.writeBus b ch).snrMax = s.snrMax := rfl
@[simp] theorem State.writeBus_rssiMin : (s.writeBus b ch).rssiMin = s.rssiMin := rfl
@[simp] theorem State.writeBus_rssiMax : (s.writeBus b ch).rssiMax = s.rssiMax := rfl
@[simp] theorem State.writeBus_counters : (s.writeBus b ch).counters = s.counters := rfl
@[simp] theorem State.writeBus_queue : (s.writeBus b ch).queue = s.queue := rfl
@[simp] theorem State.writeBus_arriving : (s.writeBus b ch).arriving = s.arriving := rfl
@[simp] theorem State.writeBus_serRx : (s.writeBus b ch).serRx = s.serRx := rfl
@[simp] theorem State.writeBus_dgRx : (s.writeBus b ch).dgRx = s.dgRx := rfl
@[simp] theorem State.writeBus_rsRx : (s.writeBus b ch).rsRx = s.rsRx := rfl
@[simp] theorem State.writeBus_inReset : (s.writeBus b ch).inReset = s.inReset := rfl
@[simp] theorem State.writeBus_responses : (s.writeBus b ch).responses = s.responses := rfl
@[simp] theorem State.writeBus_tx : (s.writeBus b ch).tx = s.tx := rfl
@[simp] theorem State.writeBus_fsOut : (s.writeBus b ch).fsOut = s.fsOut := rfl
@[simp] theorem State.writeBus_inbox : (s.writeBus b ch).inbox = s.inbox := rfl
@[simp] theorem State.writeBus_sched : (s.writeBus b ch).sched = s.sched := rfl
@[simp] theorem State.writeBus_choices : (s.writeBus b ch).choices = s.choices := rfl
@[simp] theorem State.writeBus_txDraws : (s.writeBus b ch).txDraws = s.txDraws := rfl
@[simp] theorem State.writeBus_drawCount : (s.writeBus b ch).drawCount = s.drawCount := rfl
@[simp] theorem State.writeBus_src : (s.writeBus b ch).src = s.src := rfl
@[simp] theorem State.writeBus_judged : (s.writeBus b ch).judged = s.judged := rfl
end writeBus

section cntInc
variable (c : Counter)
@[simp] theorem State.cntInc_ct : (s.cntInc c).ct = s.ct := rfl
@[simp] theorem State.cntInc_fRssi : (s.cntInc c).fRssi = s.fRssi := rfl
@[simp] theorem State.cntInc_fNoise : (s.cntInc c).fNoise = s.fNoise := rfl
@[simp] theorem State.cntInc_lqSeeded : (s.cntInc c).lqSeeded = s.lqSeeded := rfl
@[simp] theorem State.cntInc_failsafe : (s.cntInc c).failsafe = s.failsafe := rfl
@[simp] theorem State.cntInc_fsBuf : (s.cntInc c).fsBuf = s.fsBuf := rfl
@[simp] theorem State.cntInc_fsCnt : (s.cntInc c).fsCnt = s.fsCnt := rfl
@[simp] theorem State.cntInc_tickPend : (s.cntInc c).tickPend = s.tickPend := rfl
@[simp] theorem State.cntInc_tmrCnt : (s.cntInc c).tmrCnt = s.tmrCnt := rfl
@[simp] theorem State.cntInc_latRssiHi : (s.cntInc c).latRssiHi = s.latRssiHi := rfl
@[simp] theorem State.cntInc_latNoiseHi : (s.cntInc c).latNoiseHi = s.latNoiseHi := rfl
@[simp] theorem State.cntInc_ctrl : (s.cntInc c).ctrl = s.ctrl := rfl
@[simp] theorem State.cntInc_gndFreq : (s.cntInc c).gndFreq = s.gndFreq := rfl
@[simp] theorem State.cntInc_alpha : (s.cntInc c).alpha = s.alpha := rfl
@[simp] theorem State.cntInc_snrMin : (s.cntInc c).snrMin = s.snrMin := rfl
@[simp] theorem State.cntInc_snrMax : (s.cntInc c).snrMax = s.snrMax := rfl
@[simp] theorem State.cntInc_rssiMin : (s.cntInc c).rssiMin = s.rssiMin := rfl
@[simp] theorem State.cntInc_rssiMax : (s.cntInc c).rssiMax = s.rssiMax := rfl
@[simp] theorem State.cntInc_counters : (s.cntInc c).counters = s.counters.set c.ix (s.counter c + 1) := rfl
@[simp] theorem State.cntInc_queue : (s.cntInc c).queue = s.queue := rfl
@[simp] theorem State.cntInc_arriving : (s.cntInc c).arriving = s.arriving := rfl
@[simp] theorem State.cntInc_serRx : (s.cntInc c).serRx = s.serRx := rfl
@[simp] theorem State.cntInc_dgRx : (s.cntInc c).dgRx = s.dgRx := rfl
@[simp] theorem State.cntInc_rsRx : (s.cntInc c).rsRx = s.rsRx := rfl
@[simp] theorem State.cntInc_inReset : (s.cntInc c).inReset = s.inReset := rfl
@[simp] theorem State.cntInc_responses : (s.cntInc c).responses = s.responses := rfl
@[simp] theorem State.cntInc_tx : (s.cntInc c).tx = s.tx := rfl
@[simp] theorem State.cntInc_fsOut : (s.cntInc c).fsOut = s.fsOut := rfl
@[simp] theorem State.cntInc_inbox : (s.cntInc c).inbox = s.inbox := rfl
@[simp] theorem State.cntInc_sched : (s.cntInc c).sched = s.sched := rfl
@[simp] theorem State.cntInc_choices : (s.cntInc c).choices = s.choices := rfl
@[simp] theorem State.cntInc_txDraws : (s.cntInc c).txDraws = s.txDraws := rfl
@[simp] theorem State.cntInc_drawCount : (s.cntInc c).drawCount = s.drawCount := rfl
@[simp] theorem State.cntInc_src : (s.cntInc c).src = s.src := rfl
@[simp] theorem State.cntInc_judged : (s.cntInc c).judged = s.judged := rfl
end cntInc

section respond
variable (st : Status) (rs : List Word)
@[simp] theorem State.respond_ct : (s.respond st rs).ct = s.ct := rfl
@[simp] theorem State.respond_fRssi : (s.respond st rs).fRssi = s.fRssi := rfl
@[simp] theorem State.respond_fNoise : (s.respond st rs).fNoise = s.fNoise := rfl
@[simp] theorem State.respond_lqSeeded : (s.respond st rs).lqSeeded = s.lqSeeded := rfl
@[simp] theorem State.respond_failsafe : (s.respond st rs).failsafe = s.failsafe := rfl
@[simp] theorem State.respond_fsBuf : (s.respond st rs).fsBuf = s.fsBuf := rfl
@[simp] theorem State.respond_fsCnt : (s.respond st rs).fsCnt = s.fsCnt := rfl
@[simp] theorem State.respond_tickPend : (s.respond st rs).tickPend = s.tickPend := rfl
@[simp] theorem State.respond_tmrCnt : (s.respond st rs).tmrCnt = s.tmrCnt := rfl
@[simp] theorem State.respond_latRssiHi : (s.respond st rs).latRssiHi = s.latRssiHi := rfl
@[simp] theorem State.respond_latNoiseHi : (s.respond st rs).latNoiseHi = s.latNoiseHi := rfl
@[simp] theorem State.respond_ctrl : (s.respond st rs).ctrl = s.ctrl := rfl
@[simp] theorem State.respond_gndFreq : (s.respond st rs).gndFreq = s.gndFreq := rfl
@[simp] theorem State.respond_alpha : (s.respond st rs).alpha = s.alpha := rfl
@[simp] theorem State.respond_snrMin : (s.respond st rs).snrMin = s.snrMin := rfl
@[simp] theorem State.respond_snrMax : (s.respond st rs).snrMax = s.snrMax := rfl
@[simp] theorem State.respond_rssiMin : (s.respond st rs).rssiMin = s.rssiMin := rfl
@[simp] theorem State.respond_rssiMax : (s.respond st rs).rssiMax = s.rssiMax := rfl
@[simp] theorem State.respond_counters : (s.respond st rs).counters = s.counters := rfl
@[simp] theorem State.respond_queue : (s.respond st rs).queue = s.queue := rfl
@[simp] theorem State.respond_arriving : (s.respond st rs).arriving = s.arriving := rfl
@[simp] theorem State.respond_serRx : (s.respond st rs).serRx = s.serRx := rfl
@[simp] theorem State.respond_dgRx : (s.respond st rs).dgRx = s.dgRx := rfl
@[simp] theorem State.respond_rsRx : (s.respond st rs).rsRx = s.rsRx := rfl
@[simp] theorem State.respond_inReset : (s.respond st rs).inReset = s.inReset := rfl
@[simp] theorem State.respond_responses : (s.respond st rs).responses = s.responses ++ answer s.src st rs := rfl
@[simp] theorem State.respond_tx : (s.respond st rs).tx = s.tx := rfl
@[simp] theorem State.respond_fsOut : (s.respond st rs).fsOut = s.fsOut := rfl
@[simp] theorem State.respond_inbox : (s.respond st rs).inbox = s.inbox := rfl
@[simp] theorem State.respond_sched : (s.respond st rs).sched = s.sched := rfl
@[simp] theorem State.respond_choices : (s.respond st rs).choices = s.choices := rfl
@[simp] theorem State.respond_txDraws : (s.respond st rs).txDraws = s.txDraws := rfl
@[simp] theorem State.respond_drawCount : (s.respond st rs).drawCount = s.drawCount := rfl
@[simp] theorem State.respond_src : (s.respond st rs).src = s.src := rfl
@[simp] theorem State.respond_judged : (s.respond st rs).judged = s.judged := rfl
end respond

section keep
variable (f : Frame) (k : Nat) (cnt : Fin 25)
@[simp] theorem State.keep_ct : (s.keep f k cnt).ct = s.ct := by simp only [State.keep]
@[simp] theorem State.keep_fRssi : (s.keep f k cnt).fRssi = s.fRssi := by simp only [State.keep]
@[simp] theorem State.keep_fNoise : (s.keep f k cnt).fNoise = s.fNoise := by simp only [State.keep]
@[simp] theorem State.keep_lqSeeded : (s.keep f k cnt).lqSeeded = s.lqSeeded := by simp only [State.keep]
@[simp] theorem State.keep_failsafe : (s.keep f k cnt).failsafe = s.failsafe := by simp only [State.keep]
@[simp] theorem State.keep_fsBuf : (s.keep f k cnt).fsBuf = keepFrom f k s.judged := by simp only [State.keep]
@[simp] theorem State.keep_fsCnt : (s.keep f k cnt).fsCnt = cnt := by simp only [State.keep]
@[simp] theorem State.keep_tickPend : (s.keep f k cnt).tickPend = s.tickPend := by simp only [State.keep]
@[simp] theorem State.keep_tmrCnt : (s.keep f k cnt).tmrCnt = s.tmrCnt := by simp only [State.keep]
@[simp] theorem State.keep_latRssiHi : (s.keep f k cnt).latRssiHi = s.latRssiHi := by simp only [State.keep]
@[simp] theorem State.keep_latNoiseHi : (s.keep f k cnt).latNoiseHi = s.latNoiseHi := by simp only [State.keep]
@[simp] theorem State.keep_ctrl : (s.keep f k cnt).ctrl = s.ctrl := by simp only [State.keep]
@[simp] theorem State.keep_gndFreq : (s.keep f k cnt).gndFreq = s.gndFreq := by simp only [State.keep]
@[simp] theorem State.keep_alpha : (s.keep f k cnt).alpha = s.alpha := by simp only [State.keep]
@[simp] theorem State.keep_snrMin : (s.keep f k cnt).snrMin = s.snrMin := by simp only [State.keep]
@[simp] theorem State.keep_snrMax : (s.keep f k cnt).snrMax = s.snrMax := by simp only [State.keep]
@[simp] theorem State.keep_rssiMin : (s.keep f k cnt).rssiMin = s.rssiMin := by simp only [State.keep]
@[simp] theorem State.keep_rssiMax : (s.keep f k cnt).rssiMax = s.rssiMax := by simp only [State.keep]
@[simp] theorem State.keep_counters : (s.keep f k cnt).counters = s.counters := by simp only [State.keep]
@[simp] theorem State.keep_queue : (s.keep f k cnt).queue = s.queue := by simp only [State.keep]
@[simp] theorem State.keep_arriving : (s.keep f k cnt).arriving = s.arriving := by simp only [State.keep]
@[simp] theorem State.keep_serRx : (s.keep f k cnt).serRx = s.serRx := by simp only [State.keep]
@[simp] theorem State.keep_dgRx : (s.keep f k cnt).dgRx = s.dgRx := by simp only [State.keep]
@[simp] theorem State.keep_rsRx : (s.keep f k cnt).rsRx = s.rsRx := by simp only [State.keep]
@[simp] theorem State.keep_inReset : (s.keep f k cnt).inReset = s.inReset := by simp only [State.keep]
@[simp] theorem State.keep_responses : (s.keep f k cnt).responses = s.responses := by simp only [State.keep]
@[simp] theorem State.keep_tx : (s.keep f k cnt).tx = s.tx := by simp only [State.keep]
@[simp] theorem State.keep_fsOut : (s.keep f k cnt).fsOut = s.fsOut := by simp only [State.keep]
@[simp] theorem State.keep_inbox : (s.keep f k cnt).inbox = s.inbox := by simp only [State.keep]
@[simp] theorem State.keep_sched : (s.keep f k cnt).sched = s.sched := by simp only [State.keep]
@[simp] theorem State.keep_choices : (s.keep f k cnt).choices = s.choices := by simp only [State.keep]
@[simp] theorem State.keep_txDraws : (s.keep f k cnt).txDraws = s.txDraws := by simp only [State.keep]
@[simp] theorem State.keep_drawCount : (s.keep f k cnt).drawCount = s.drawCount := by simp only [State.keep]
@[simp] theorem State.keep_src : (s.keep f k cnt).src = s.src := by simp only [State.keep]
@[simp] theorem State.keep_judged : (s.keep f k cnt).judged = s.judged + 1 := by simp only [State.keep]
end keep

section txSend
variable (b : BusIx) (bytes : List Byte)
@[simp] theorem State.txSend_ct : (s.txSend b bytes).ct = s.ct := rfl
@[simp] theorem State.txSend_fRssi : (s.txSend b bytes).fRssi = s.fRssi := rfl
@[simp] theorem State.txSend_fNoise : (s.txSend b bytes).fNoise = s.fNoise := rfl
@[simp] theorem State.txSend_lqSeeded : (s.txSend b bytes).lqSeeded = s.lqSeeded := rfl
@[simp] theorem State.txSend_failsafe : (s.txSend b bytes).failsafe = s.failsafe := rfl
@[simp] theorem State.txSend_fsBuf : (s.txSend b bytes).fsBuf = s.fsBuf := rfl
@[simp] theorem State.txSend_fsCnt : (s.txSend b bytes).fsCnt = s.fsCnt := rfl
@[simp] theorem State.txSend_tickPend : (s.txSend b bytes).tickPend = s.tickPend := rfl
@[simp] theorem State.txSend_tmrCnt : (s.txSend b bytes).tmrCnt = s.tmrCnt := rfl
@[simp] theorem State.txSend_latRssiHi : (s.txSend b bytes).latRssiHi = s.latRssiHi := rfl
@[simp] theorem State.txSend_latNoiseHi : (s.txSend b bytes).latNoiseHi = s.latNoiseHi := rfl
@[simp] theorem State.txSend_ctrl : (s.txSend b bytes).ctrl = s.ctrl := rfl
@[simp] theorem State.txSend_gndFreq : (s.txSend b bytes).gndFreq = s.gndFreq := rfl
@[simp] theorem State.txSend_alpha : (s.txSend b bytes).alpha = s.alpha := rfl
@[simp] theorem State.txSend_snrMin : (s.txSend b bytes).snrMin = s.snrMin := rfl
@[simp] theorem State.txSend_snrMax : (s.txSend b bytes).snrMax = s.snrMax := rfl
@[simp] theorem State.txSend_rssiMin : (s.txSend b bytes).rssiMin = s.rssiMin := rfl
@[simp] theorem State.txSend_rssiMax : (s.txSend b bytes).rssiMax = s.rssiMax := rfl
@[simp] theorem State.txSend_counters : (s.txSend b bytes).counters = s.counters := rfl
@[simp] theorem State.txSend_queue : (s.txSend b bytes).queue = s.queue := rfl
@[simp] theorem State.txSend_arriving : (s.txSend b bytes).arriving = s.arriving := rfl
@[simp] theorem State.txSend_serRx : (s.txSend b bytes).serRx = s.serRx := rfl
@[simp] theorem State.txSend_dgRx : (s.txSend b bytes).dgRx = s.dgRx := rfl
@[simp] theorem State.txSend_rsRx : (s.txSend b bytes).rsRx = s.rsRx := rfl
@[simp] theorem State.txSend_inReset : (s.txSend b bytes).inReset = s.inReset := rfl
@[simp] theorem State.txSend_responses : (s.txSend b bytes).responses = s.responses := rfl
@[simp] theorem State.txSend_tx : (s.txSend b bytes).tx = s.tx ++ [⟨b, bytes, s.draw⟩] := rfl
@[simp] theorem State.txSend_fsOut : (s.txSend b bytes).fsOut = s.fsOut := rfl
@[simp] theorem State.txSend_inbox : (s.txSend b bytes).inbox = s.inbox := rfl
@[simp] theorem State.txSend_sched : (s.txSend b bytes).sched = s.sched := rfl
@[simp] theorem State.txSend_choices : (s.txSend b bytes).choices = s.choices := rfl
@[simp] theorem State.txSend_txDraws : (s.txSend b bytes).txDraws = s.txDraws.tail := rfl
@[simp] theorem State.txSend_drawCount : (s.txSend b bytes).drawCount = s.drawCount + 1 := rfl
@[simp] theorem State.txSend_src : (s.txSend b bytes).src = s.src := rfl
@[simp] theorem State.txSend_judged : (s.txSend b bytes).judged = s.judged := rfl
end txSend

section chosen
@[simp] theorem State.chosen_ct : (s.chosen).ct = s.ct := rfl
@[simp] theorem State.chosen_fRssi : (s.chosen).fRssi = s.fRssi := rfl
@[simp] theorem State.chosen_fNoise : (s.chosen).fNoise = s.fNoise := rfl
@[simp] theorem State.chosen_lqSeeded : (s.chosen).lqSeeded = s.lqSeeded := rfl
@[simp] theorem State.chosen_failsafe : (s.chosen).failsafe = s.failsafe := rfl
@[simp] theorem State.chosen_fsBuf : (s.chosen).fsBuf = s.fsBuf := rfl
@[simp] theorem State.chosen_fsCnt : (s.chosen).fsCnt = s.fsCnt := rfl
@[simp] theorem State.chosen_tickPend : (s.chosen).tickPend = s.tickPend := rfl
@[simp] theorem State.chosen_tmrCnt : (s.chosen).tmrCnt = s.tmrCnt := rfl
@[simp] theorem State.chosen_latRssiHi : (s.chosen).latRssiHi = s.latRssiHi := rfl
@[simp] theorem State.chosen_latNoiseHi : (s.chosen).latNoiseHi = s.latNoiseHi := rfl
@[simp] theorem State.chosen_ctrl : (s.chosen).ctrl = s.ctrl := rfl
@[simp] theorem State.chosen_gndFreq : (s.chosen).gndFreq = s.gndFreq := rfl
@[simp] theorem State.chosen_alpha : (s.chosen).alpha = s.alpha := rfl
@[simp] theorem State.chosen_snrMin : (s.chosen).snrMin = s.snrMin := rfl
@[simp] theorem State.chosen_snrMax : (s.chosen).snrMax = s.snrMax := rfl
@[simp] theorem State.chosen_rssiMin : (s.chosen).rssiMin = s.rssiMin := rfl
@[simp] theorem State.chosen_rssiMax : (s.chosen).rssiMax = s.rssiMax := rfl
@[simp] theorem State.chosen_counters : (s.chosen).counters = s.counters := rfl
@[simp] theorem State.chosen_queue : (s.chosen).queue = s.queue := rfl
@[simp] theorem State.chosen_arriving : (s.chosen).arriving = s.arriving := rfl
@[simp] theorem State.chosen_serRx : (s.chosen).serRx = s.serRx := rfl
@[simp] theorem State.chosen_dgRx : (s.chosen).dgRx = s.dgRx := rfl
@[simp] theorem State.chosen_rsRx : (s.chosen).rsRx = s.rsRx := rfl
@[simp] theorem State.chosen_inReset : (s.chosen).inReset = s.inReset := rfl
@[simp] theorem State.chosen_responses : (s.chosen).responses = s.responses := rfl
@[simp] theorem State.chosen_tx : (s.chosen).tx = s.tx := rfl
@[simp] theorem State.chosen_fsOut : (s.chosen).fsOut = s.fsOut := rfl
@[simp] theorem State.chosen_inbox : (s.chosen).inbox = s.inbox := rfl
@[simp] theorem State.chosen_sched : (s.chosen).sched = s.sched.tail := rfl
@[simp] theorem State.chosen_choices : (s.chosen).choices = s.choices + 1 := rfl
@[simp] theorem State.chosen_txDraws : (s.chosen).txDraws = s.txDraws := rfl
@[simp] theorem State.chosen_drawCount : (s.chosen).drawCount = s.drawCount := rfl
@[simp] theorem State.chosen_src : (s.chosen).src = s.src := rfl
@[simp] theorem State.chosen_judged : (s.chosen).judged = s.judged := rfl
end chosen

end Sys2Proof.Machine
end

