-- ==== Sys2Proof/Laws/Ops.lean ====
section
/-! SUPPORT. What each shared operation does, said once: counters, slots, clamping, responses, the
codec, FrameSync's push, the filter, the send loop, and each meaning of exec as one equation. -/

namespace Sys2Proof.Machine

variable (s : State)

/-! ### Counters and slots -/

theorem Counter.ix_inj {c d : Counter} (h : c.ix = d.ix) : c = d := by
  cases c <;> cases d <;> first | rfl | (exact absurd h (by decide))

theorem State.cntInc_eq (c : Counter) :
    s.cntInc c = { s with counters := s.counters.set c.ix (s.counter c + 1) } := rfl

theorem State.cntInc_counter (c d : Counter) :
    (s.cntInc c).counter d = if c = d then s.counter d + 1 else s.counter d := by
  unfold State.counter
  by_cases h : c = d
  · subst h; simp [State.counter]
  · have hx : c.ix.val ≠ d.ix.val := fun e => h (Counter.ix_inj (Fin.ext e))
    simp [h, hx]

theorem State.writeSlot_slot (b b' : BusIx) (c c' : ChIx) (v : ChVal) :
    (s.writeSlot b c v).slot b' c' = if b = b' ∧ c = c' then v else s.slot b' c' := by
  unfold State.slot
  by_cases hb : b = b'
  · subst hb
    by_cases hc : c = c'
    · subst hc; simp
    · have : c.val ≠ c'.val := fun e => hc (Fin.ext e)
      simp [hc, this]
  · have : b.val ≠ b'.val := fun e => hb (Fin.ext e)
    simp [hb, this]

theorem State.writeBus_slot (b b' : BusIx) (c : ChIx) (ch : Channels) :
    (s.writeBus b ch).slot b' c = if b = b' then ch[c] else s.slot b' c := by
  unfold State.slot
  by_cases hb : b = b'
  · subst hb; simp
  · have : b.val ≠ b'.val := fun e => hb (Fin.ext e)
    simp [hb, this]

/-! ### Operands -/

theorem clamp11_toNat (v : Int) : ((clamp11 v).toNat : Int) = max 0 (min 2047 v) := by
  unfold clamp11 chMax
  split
  · simp; omega
  · split
    · simp; omega
    · rw [BitVec.toNat_ofInt]
      have : (v % (2 ^ 11 : Nat)) = v := Int.emod_eq_of_lt (by omega) (by norm_num; omega)
      rw [this]
      omega

theorem envelopeFrame_getElem (e : Envelope) (k : Nat) (h : k < 25) :
    (envelopeFrame e)[k] = e[k + 1] := by simp [envelopeFrame]

theorem payload_getElem (f : Frame) (m : Nat) (h : m < 22) : (payload f)[m] = f[m + 1] := by simp [payload]

/-! ### The codec -/

theorem pack_getElem (ch : Channels) (k : Nat) (h : k < 25) :
    (pack ch)[k] = if k = 0 then startMarker
      else if k ≤ 22 then BitVec.ofNat 8 (fromDigits 11 ch.toList >>> (8 * (k - 1)))
      else if k = 23 then flagsTx else endMarker := by simp [pack]

theorem payload_pack (ch : Channels) : payload (pack ch) = toDigits 8 22 (fromDigits 11 ch.toList) := by
  refine Vector.ext fun m hm => ?_
  have h : m + 1 ≤ 22 := hm
  rw [payload_getElem _ _ hm, pack_getElem _ _ (by omega), toDigits_getElem]
  simp [h]

theorem decodeFrame_eq_some {f : Frame} {ch : Channels} :
    decodeFrame f = some ch ↔ markersOk f = true ∧ unpack f = ch := by
  unfold decodeFrame; split <;> simp_all

theorem decodeFrame_eq_none {f : Frame} : decodeFrame f = none ↔ markersOk f = false := by
  unfold decodeFrame; split <;> simp_all

theorem markersOk_iff (f : Frame) : markersOk f = true ↔ f[0] = startMarker ∧ f[24] = endMarker := by
  simp [markersOk]

/-! ### FrameSync -/

theorem fsPush_searching_skip {x : Byte} (h : s.fsCnt.val = 0) (hx : x ≠ startMarker) :
    fsPush x s = .quiet s := by simp [fsPush, h, hx]

theorem fsPush_searching_start (h : s.fsCnt.val = 0) :
    fsPush startMarker s = .quiet { s with fsBuf := s.fsBuf.set 0 startMarker, fsCnt := 1 } := by
  simp [fsPush, h]

theorem fsPush_collecting {x : Byte} (h0 : s.fsCnt.val ≠ 0) (h : s.fsCnt.val + 1 < 25) :
    fsPush x s = .quiet { s with fsBuf := s.fsBuf.set s.fsCnt x, fsCnt := ⟨s.fsCnt.val + 1, h⟩ } := by
  simp [fsPush, h0, h]

theorem fsPush_full {x : Byte} (h : s.fsCnt.val = 24) :
    fsPush x s = judge (s.fsBuf.set s.fsCnt x) s := by
  simp [fsPush, h]

theorem laterMarker_eq_some {f : Frame} {j : Fin 24} (h : laterMarker f = some j) :
    f[j.val + 1] = startMarker ∧ ∀ i : Fin 24, i < j → f[i.val + 1] ≠ startMarker := by
  unfold laterMarker at h
  rw [List.find?_eq_some_iff_getElem] at h
  obtain ⟨h1, k, hk, hkj, h2⟩ := h
  rw [List.getElem_finRange] at hkj
  refine ⟨by simpa using h1, fun i hi => ?_⟩
  have hjk : j.val = k := by rw [← hkj]; rfl
  have := h2 i.val (by rw [← hjk]; exact hi)
  simpa [List.getElem_finRange] using this

theorem laterMarker_eq_none {f : Frame} : laterMarker f = none ↔ ∀ i : Fin 24, f[i.val + 1] ≠ startMarker := by
  simp [laterMarker, List.find?_eq_none]

theorem keepFrom_getElem (f : Frame) (k n i : Nat) (h : i + k < 25) : (keepFrom f k n)[i] = f[i + k] := by
  simp [keepFrom, h]

theorem channelWords_getElem (ch : Channels) (k : Nat) (h : k < (channelWords ch).length) :
    (channelWords ch)[k] = (ch[k]'(by simpa [channelWords] using h)).setWidth 32 := by
  simp only [channelWords, List.getElem_map, Vector.getElem_toList, chWord]

theorem channelWords_length (ch : Channels) : (channelWords ch).length = 16 := by simp [channelWords]

theorem channelWords_zero : channelWords (Vector.replicate 16 0) = List.replicate 16 0 := by decide

/-- The flag word of a push that emits nothing: FS_CNT in bits 12:8 (R460). -/
theorem pushFlags_quiet_word (c : Fin 25) :
    (⟨false, false, false, false⟩ : PushFlags).word c = BitVec.ofNat 32 (c.val * 256) := by
  revert c; decide

/-! ### The send loop -/

/-- The bytes of a record, with the type_idx of the envelope as a number (R605). -/
theorem txBytes_eq (env : Bool) (b : BusIx) (f : Frame) :
    txBytes env b f = (if env then [if b = 0 then (0x20 : Byte) else 0x21] else []) ++ f.toList := by
  have h : envSbusBit ||| BitVec.ofNat 8 b.val = if b = 0 then (0x20 : Byte) else 0x21 := by revert b; decide
  unfold txBytes
  rw [h]
  cases env
  · simp only [Bool.false_eq_true, if_false, List.nil_append]
  · simp only [if_true, List.cons_append, List.nil_append]

theorem clearTick_eq :
    s.clearTick = { s with tickPend := if s.src = .timer then false else s.tickPend } := by
  unfold State.clearTick; split <;> rfl

/-- What the send loop may change: TX, the draws, and the counters. -/
theorem sendAll_frame (env : Bool) (snap : Vector Channels 2) (bs : List BusIx) (t : TickFlags) :
    ∃ tx dr n cs, (sendAll env snap bs t s).2 = { s with tx := tx, txDraws := dr, drawCount := n, counters := cs } := by
  induction bs generalizing s t with
  | nil => exact ⟨_, _, _, _, rfl⟩
  | cons b bs ih =>
    unfold sendAll
    cases s.draw with
    | accept =>
      obtain ⟨tx, dr, n, cs, h⟩ := ih ((s.txSend b (txBytes env b (pack snap[b]))).cntInc .txOk) (t.sent b)
      exact ⟨tx, dr, n, cs, h⟩
    | reject => exact ⟨_, _, _, _, rfl⟩

/-- What the body of a TICK may change. -/
theorem tickBody_frame :
    ∃ tx dr n cs, s.tickBody.2 = { s with tx := tx, txDraws := dr, drawCount := n, counters := cs } := by
  unfold State.tickBody
  split
  · exact ⟨_, _, _, _, rfl⟩
  · obtain ⟨tx, dr, n, cs, h⟩ :=
      sendAll_frame (s.cntInc .tick) s.txEnv s.ct s.txBuses ⟨false, false, false, false⟩
    exact ⟨tx, dr, n, cs, h⟩

/-! ### What one push may change -/

/-- An emission: one record, one count, and the bus when FS_STORE = 1 (R462). -/
theorem fsEmit_eq (f : Frame) (ch : Channels) :
    s.fsEmit f ch = { s with
      fsOut := s.fsOut ++ [⟨f, ch⟩], counters := s.counters.set 5 (s.counters[5] + 1)
      ct := if s.fsStore then s.ct.set s.fsBus ch else s.ct } := by
  unfold State.fsEmit
  dsimp only
  split <;> simp only [State.cntInc_eq, State.writeBus, State.counter, Counter.ix] <;> rfl

/-- A judgement that keeps nothing or some of the bytes. -/
theorem keep_eq (f : Frame) (k : Nat) (cnt : Fin 25) :
    s.keep f k cnt = { s with fsBuf := keepFrom f k s.judged, fsCnt := cnt, judged := s.judged + 1 } := by
  simp only [State.keep]

theorem fsEmit_frame (f : Frame) (ch : Channels) :
    ∃ ct fo cs, s.fsEmit f ch = { s with ct := ct, fsOut := fo, counters := cs } := by
  unfold State.fsEmit
  dsimp only
  split <;> exact ⟨_, _, _, rfl⟩

theorem fsPush_frame (x : Byte) :
    ∃ ct fo cs buf cnt n, (fsPush x s).state =
      { s with ct := ct, fsOut := fo, counters := cs, fsBuf := buf, fsCnt := cnt, judged := n } := by
  unfold fsPush
  split
  · split <;> exact ⟨_, _, _, _, _, _, rfl⟩
  · dsimp only
    split
    · exact ⟨_, _, _, _, _, _, rfl⟩
    · unfold judge
      split
      · rename_i ch _
        obtain ⟨ct, fo, cs, h⟩ := fsEmit_frame s (s.fsBuf.set s.fsCnt x) ch
        exact ⟨ct, fo, cs, _, _, _, by dsimp only; rw [h]; rfl⟩
      · split <;> exact ⟨_, _, _, _, _, _, rfl⟩

/-! ### Every meaning as one equation -/

@[simp] theorem exec_nop : exec .nop s = .next (s.respond .ok []) := rfl
@[simp] theorem exec_ctSet (b : BusIx) (ch : ChIx) (v : Word) :
    exec (.ctSet b ch v) s = .next ((s.writeSlot b ch (clamp11 (s32 v))).respond .ok []) := rfl
@[simp] theorem exec_ctGet (b : BusIx) (ch : ChIx) :
    exec (.ctGet b ch) s = .next (s.respond .ok [chWord (s.slot b ch)]) := rfl
@[simp] theorem exec_ctSnapshot (b : BusIx) :
    exec (.ctSnapshot b) s = .next (s.respond .ok (channelWords s.ct[b])) := rfl
@[simp] theorem exec_sbusEncode (v : Vector Word 16) :
    exec (.sbusEncode v) s
      = .next (s.respond .ok (wordsFromFrame (pack (Vector.ofFn fun i => clamp11 (s32 v[i]))).toList)) := rfl
theorem exec_sbusDecode (w : Vector Word 7) : exec (.sbusDecode w) s = execSbusDecode w s := rfl
theorem exec_fsPush (x : Byte) : exec (.fsPush x) s = execFsPush x s := rfl
@[simp] theorem exec_lqObserve (r n : Word) :
    exec (.lqObserve r n) s
      = .next ((s.observe r n).respond .ok [lqWord (s.observe r n).failsafe (!s.lqSeeded)]) := rfl
@[simp] theorem exec_tick :
    exec .tick s = .next (s.clearTick.tickBody.2.respond .ok [s.clearTick.tickBody.1.word]) := rfl
@[simp] theorem exec_ppmToSbus (p : Word) :
    exec (.ppmToSbus p) s = .next (s.respond .ok [BitVec.ofInt 32 (p2s (s32 p))]) := rfl
@[simp] theorem exec_sbusToPpm (v : Word) :
    exec (.sbusToPpm v) s = .next (s.respond .ok [BitVec.ofInt 32 (s2p (s32 v))]) := rfl
theorem exec_cfgRd (n : Byte) : exec (.cfgRd n) s = execCfgRd n s := rfl
theorem exec_cfgWr (n : Byte) (v : Word) : exec (.cfgWr n v) s = execCfgWr n v s := rfl
theorem exec_dgramRx (w : Vector Word 7) : exec (.dgramRx w) s = execDgramRx w s := rfl

/-- What an observation may change. -/
theorem observe_frame (r n : Word) :
    ∃ F N fs cs, s.observe r n = { s with fRssi := F, fNoise := N, lqSeeded := true, failsafe := fs, counters := cs } :=
  ⟨_, _, _, _, rfl⟩

/-- What a register read may change: the two latches. -/
theorem latch_frame (r : Reg) : ∃ a b, s.latch r = { s with latRssiHi := a, latNoiseHi := b } := by
  cases r <;> exact ⟨_, _, rfl⟩

/-- What a register write may change: the seven writable registers. -/
theorem writeReg_frame {t : State} {v : Word} {r : Reg} (h : s.writeReg v r = some t) :
    ∃ c g a p q x y, t = { s with ctrl := c, gndFreq := g, alpha := a, snrMin := p, snrMax := q, rssiMin := x, rssiMax := y } := by
  cases r <;> cases h <;> exact ⟨_, _, _, _, _, _, _, rfl⟩

/-- What no command touches: the ports, the reset level, the model's own choices and source. -/
structure SamePorts (s t : State) : Prop where
  queue    : t.queue = s.queue
  arriving : t.arriving = s.arriving
  serRx    : t.serRx = s.serRx
  dgRx     : t.dgRx = s.dgRx
  rsRx     : t.rsRx = s.rsRx
  inReset  : t.inReset = s.inReset
  inbox    : t.inbox = s.inbox
  sched    : t.sched = s.sched
  choices  : t.choices = s.choices
  src      : t.src = s.src

/-- A command leaves the ports, the reset level and the model's own choices alone. -/
theorem exec_samePorts {i : Instr} {t : State} (h : exec i s = .next t) : SamePorts s t := by
  cases i with
  | sbusDecode w =>
    rw [exec_sbusDecode] at h
    unfold execSbusDecode at h
    split at h <;> cases h <;> exact ⟨rfl, rfl, rfl, rfl, rfl, rfl, rfl, rfl, rfl, rfl⟩
  | fsPush x =>
    rw [exec_fsPush] at h
    cases h
    obtain ⟨ct, fo, cs, buf, cnt, n, hf⟩ := fsPush_frame s x
    constructor <;> simp [hf]
  | tick =>
    rw [exec_tick] at h
    cases h
    obtain ⟨tx, dr, n, cs, hf⟩ := tickBody_frame s.clearTick
    rw [hf, clearTick_eq]
    exact ⟨rfl, rfl, rfl, rfl, rfl, rfl, rfl, rfl, rfl, rfl⟩
  | cfgRd n =>
    rw [exec_cfgRd] at h
    unfold execCfgRd at h
    split at h <;> cases h
    · rename_i r _
      obtain ⟨a, b, hl⟩ := latch_frame s r
      rw [hl]
      exact ⟨rfl, rfl, rfl, rfl, rfl, rfl, rfl, rfl, rfl, rfl⟩
    · exact ⟨rfl, rfl, rfl, rfl, rfl, rfl, rfl, rfl, rfl, rfl⟩
  | cfgWr n v =>
    rw [exec_cfgWr] at h
    unfold execCfgWr at h
    split at h <;> cases h
    · rename_i u hu
      obtain ⟨r, _, hr⟩ := Option.bind_eq_some_iff.mp hu
      obtain ⟨_, _, _, _, _, _, _, rfl⟩ := writeReg_frame s hr
      exact ⟨rfl, rfl, rfl, rfl, rfl, rfl, rfl, rfl, rfl, rfl⟩
    · exact ⟨rfl, rfl, rfl, rfl, rfl, rfl, rfl, rfl, rfl, rfl⟩
  | dgramRx w =>
    rw [exec_dgramRx] at h
    unfold execDgramRx at h
    dsimp only at h
    split at h
    · cases h; exact ⟨rfl, rfl, rfl, rfl, rfl, rfl, rfl, rfl, rfl, rfl⟩
    · split at h <;> cases h <;> exact ⟨rfl, rfl, rfl, rfl, rfl, rfl, rfl, rfl, rfl, rfl⟩
  | _ => cases h; exact ⟨rfl, rfl, rfl, rfl, rfl, rfl, rfl, rfl, rfl, rfl⟩

/-- What the timer may change. -/
theorem timerCycle_frame (fRef : Nat) :
    ∃ p c cs, s.timerCycle fRef = { s with tickPend := p, tmrCnt := c, counters := cs } := by
  unfold State.timerCycle State.timerFire
  split
  · split
    · split <;> exact ⟨_, _, _, rfl⟩
    · exact ⟨_, _, _, rfl⟩
  · exact ⟨_, _, _, rfl⟩

end Sys2Proof.Machine
end

