-- ==== Sys2Proof/Laws/Ports.lean ====
section
/-! SUPPORT. The ports and the arbiter: framing of a word stream, which agents are ready, and what
picking and granting can do. -/

namespace Sys2Proof.Machine

/-! ### The opcode map -/

theorem opcode_mem_all (o : Opcode) : o ∈ Opcode.all := by cases o <;> decide

theorem opcode_nops_announced (o : Opcode) : nopsField o.row.match' = o.row.nops := by cases o <;> decide

theorem opcode_ofCode_code (o : Opcode) : Opcode.ofCode o.row.code = some o := by cases o <;> decide

theorem opcode_code_of_ofCode {c : Byte} {o : Opcode} (h : Opcode.ofCode c = some o) : o.row.code = c := by
  simpa using List.find?_some h

/-- The command word's opcode is the row's wherever the row's mask and match hold. -/
theorem opcode_ofCode_field {o : Opcode} {w : Word} (h : w &&& o.row.mask = o.row.match') :
    Opcode.ofCode (opcField w) = some o := by
  have h1 : o.row.mask &&& 0xFF = 0xFF := by cases o <;> decide
  have h3 : o.row.match' &&& 0xFF = o.row.code.setWidth 32 := by cases o <;> decide
  have h4 : w &&& 0xFF = o.row.code.setWidth 32 := by rw [← h3, ← h, BitVec.and_assoc, h1]
  have h2 : opcField w = o.row.code := by
    unfold opcField
    apply BitVec.eq_of_toNat_eq
    have h5 := congrArg BitVec.toNat h4
    simp at h5
    rw [show (255 : Nat) = 2 ^ 8 - 1 from rfl, Nat.and_two_pow_sub_one_eq_mod] at h5
    have hc := o.row.code.isLt
    simp only [BitVec.extractLsb'_toNat]
    simp; omega
  rw [h2]; exact opcode_ofCode_code o

/-! ### Operand words -/

theorem takeOps_toList {n : Nat} (v : Vector Word n) : takeOps n v.toList = .ok v := by
  unfold takeOps; rw [dif_pos v.length_toList]; rfl

theorem takeOps_ok {n : Nat} {ops : List Word} {v : Vector Word n} (h : takeOps n ops = .ok v) :
    v.toList = ops := by
  unfold takeOps at h
  split at h <;> cases h
  rfl

theorem takeOps_of_length {n : Nat} {ops : List Word} (h : ops.length = n) : ∃ v, takeOps n ops = .ok v := by
  subst h; exact ⟨_, dif_pos rfl⟩

/-! ### Framing -/

theorem nopsField_lt (w : Word) : nopsField w < 32 := (w.extractLsb' 24 5).isLt

theorem takeTransaction_cons (w : Word) (ws : List Word) :
    takeTransaction (w :: ws) = if nopsField w ≤ ws.length
      then some (⟨w, ws.take (nopsField w)⟩, ws.drop (nopsField w)) else none := rfl

/-- A stream that held no transaction holds exactly one when the next word completes it. -/
theorem takeTransaction_snoc {ws rest : List Word} {w : Word} {c : Command}
    (h0 : takeTransaction ws = none) (h : takeTransaction (ws ++ [w]) = some (c, rest)) :
    rest = [] ∧ c.word :: c.ops = ws ++ [w] ∧ c.ops.length = nopsField c.word := by
  cases ws with
  | nil =>
    rw [List.nil_append, takeTransaction_cons] at h
    split at h
    · rename_i hn
      have hn0 : nopsField w = 0 := by simpa using hn
      obtain ⟨rfl, rfl⟩ := Prod.mk.inj (Option.some.inj h)
      simp [hn0]
    · cases h
  | cons v vs =>
    rw [takeTransaction_cons] at h0
    rw [List.cons_append, takeTransaction_cons] at h
    split at h0
    · cases h0
    · split at h
      · rename_i h1 h2
        rw [List.length_append, List.length_singleton] at h2
        have hn : nopsField v = (vs ++ [w]).length := by rw [List.length_append, List.length_singleton]; omega
        obtain ⟨rfl, rfl⟩ := Prod.mk.inj (Option.some.inj h)
        simp [hn]
      · cases h

/-! ### Picking -/

theorem freePick_mem {n : Nat} {as : List Agent} {a : Agent} (h : freePick n as = some a) : a ∈ as := by
  match as, h with
  | [b], h => simp only [freePick, Option.some.injEq] at h; simp [h]
  | b :: c :: as, h => exact List.mem_of_getElem? h

theorem freePick_isSome {n : Nat} {as : List Agent} (h : as ≠ []) : ∃ a, freePick n as = some a := by
  match as, h with
  | [a], _ => exact ⟨a, rfl⟩
  | a :: b :: as, _ =>
    have hlt : Config.arbiter n % (as.length + 2) < (a :: b :: as).length := Nat.mod_lt _ (by omega)
    exact ⟨_, List.getElem?_eq_getElem hlt⟩

theorem mem_readySources (s : State) (src : Source) :
    src ∈ s.readySources ↔ match src with
      | .host p => s.portQueue p ≠ []
      | .serRx  => s.serRx ≠ []
      | .dgRx   => s.dgRx ≠ []
      | .rsRx   => s.rsRx ≠ []
      | .timer  => s.tickPend = true := by
  have hq : ∀ p, s.portQueue p ≠ [] ↔ ∃ e ∈ s.queue, e.1 = p := by
    intro p
    simp only [State.portQueue, ne_eq, List.map_eq_nil_iff, List.filter_eq_nil_iff]
    simp
  unfold State.readySources
  simp only [List.mem_append, List.mem_eraseDups, List.mem_map]
  cases src with
  | host p =>
    simp only [hq]
    constructor
    · rintro ((((⟨e, he, h⟩ | h) | h) | h) | h)
      · exact ⟨e, he, by simpa using h⟩
      all_goals (split at h <;> simp at h)
    · rintro ⟨e, he, rfl⟩
      exact .inl (.inl (.inl (.inl ⟨e, he, rfl⟩)))
  | serRx => cases h : s.serRx <;> simp
  | dgRx => cases h : s.dgRx <;> simp
  | rsRx => cases h : s.rsRx <;> simp
  | timer => cases h : s.tickPend <;> simp

theorem grant_mem_ready (s : State) (src : Source) :
    Agent.grant src ∈ s.ready ↔ s.inReset = false ∧ src ∈ s.readySources := by
  unfold State.ready
  simp only [List.mem_append]
  cases s.inReset <;> cases s.inbox <;> cases s.timerLive <;> simp

theorem clock_mem_ready (s : State) : Agent.clock ∈ s.ready ↔ s.inReset = false ∧ s.timerLive = true := by
  unfold State.ready
  simp only [List.mem_append]
  cases s.inReset <;> cases s.inbox <;> cases s.timerLive <;> simp

theorem input_mem_ready (s : State) : Agent.input ∈ s.ready ↔ s.inbox ≠ [] := by
  unfold State.ready
  simp only [List.mem_append]
  cases s.inReset <;> cases s.inbox <;> cases s.timerLive <;> simp

/-! ### Granting -/

/-- What taking a granted source's command may change: its queue, and where the response will go. -/
theorem takeCommand_frame {s t : State} {src : Source} {c : Command} (h : s.takeCommand src = some (c, t)) :
    ∃ q x d r, t = { s with queue := q, serRx := x, dgRx := d, rsRx := r, src := src } := by
  unfold State.takeCommand at h
  split at h <;> split at h <;> first | (cases h; done) | (cases h; exact ⟨_, _, _, _, rfl⟩)

theorem hostWord_inReset (s : State) (p : Nat) (w : Word) : (s.hostWord p w).inReset = s.inReset := by
  unfold State.hostWord; split <;> rfl

theorem dgArrive_inReset (s : State) (d : List Byte) : (s.dgArrive d).inReset = s.inReset := by
  unfold State.dgArrive; split <;> rfl

theorem rsArrive_inReset (s : State) (d : List Byte) : (s.rsArrive d).inReset = s.inReset := by
  unfold State.rsArrive; split <;> rfl

/-- An input changes the reset level only if it is the reset input. -/
theorem deliver_inReset (s : State) (e : Input) (h : ∀ b, e ≠ .reset b) : (s.deliver e).inReset = s.inReset := by
  cases e with
  | reset b => exact absurd rfl (h b)
  | hostWord p w => simp only [State.deliver]; split <;> simp [hostWord_inReset]
  | serByte x => simp only [State.deliver]; split <;> rfl
  | datagram d => simp only [State.deliver]; split <;> simp [dgArrive_inReset]
  | radioStatus d => simp only [State.deliver]; split <;> simp [rsArrive_inReset]

end Sys2Proof.Machine
end

