-- ==== Sys2Proof/Laws/PerInstr.lean ====
section
/-! SUPPORT. A statement about every command as syntax: it has as many operand words as its row of the
opcode map says (R340), and its encoded command word announces that many (R300). -/

namespace Sys2Proof.Laws

/-- The operand words of a command are as many as its row takes and as its word announces. -/
def Framing.Statement (i : Instr) : Prop :=
  i.operands.length = i.opcode.row.nops ∧ nopsField i.opcode.row.match' = i.opcode.row.nops

theorem Framing.nop : Framing.Statement .nop := ⟨rfl, Sys2Proof.Machine.opcode_nops_announced _⟩
theorem Framing.ctSet (b : BusIx) (ch : ChIx) (v : Word) : Framing.Statement (.ctSet b ch v) := ⟨rfl, Sys2Proof.Machine.opcode_nops_announced _⟩
theorem Framing.ctGet (b : BusIx) (ch : ChIx) : Framing.Statement (.ctGet b ch) := ⟨rfl, Sys2Proof.Machine.opcode_nops_announced _⟩
theorem Framing.ctSnapshot (b : BusIx) : Framing.Statement (.ctSnapshot b) := ⟨rfl, Sys2Proof.Machine.opcode_nops_announced _⟩
theorem Framing.sbusEncode (v : Vector Word 16) : Framing.Statement (.sbusEncode v) := ⟨v.length_toList, Sys2Proof.Machine.opcode_nops_announced _⟩
theorem Framing.sbusDecode (w : Vector Word 7) : Framing.Statement (.sbusDecode w) := ⟨w.length_toList, Sys2Proof.Machine.opcode_nops_announced _⟩
theorem Framing.fsPush (x : Byte) : Framing.Statement (.fsPush x) := ⟨rfl, Sys2Proof.Machine.opcode_nops_announced _⟩
theorem Framing.lqObserve (r n : Word) : Framing.Statement (.lqObserve r n) := ⟨rfl, Sys2Proof.Machine.opcode_nops_announced _⟩
theorem Framing.tick : Framing.Statement .tick := ⟨rfl, Sys2Proof.Machine.opcode_nops_announced _⟩
theorem Framing.ppmToSbus (p : Word) : Framing.Statement (.ppmToSbus p) := ⟨rfl, Sys2Proof.Machine.opcode_nops_announced _⟩
theorem Framing.sbusToPpm (v : Word) : Framing.Statement (.sbusToPpm v) := ⟨rfl, Sys2Proof.Machine.opcode_nops_announced _⟩
theorem Framing.cfgRd (n : Byte) : Framing.Statement (.cfgRd n) := ⟨rfl, Sys2Proof.Machine.opcode_nops_announced _⟩
theorem Framing.cfgWr (n : Byte) (v : Word) : Framing.Statement (.cfgWr n v) := ⟨rfl, Sys2Proof.Machine.opcode_nops_announced _⟩
theorem Framing.dgramRx (w : Vector Word 7) : Framing.Statement (.dgramRx w) := ⟨w.length_toList, Sys2Proof.Machine.opcode_nops_announced _⟩

end Sys2Proof.Laws
end

