-- ==== Sys2Proof/Tests/Slice0.lean ====
section
/-! SUPPORT. Tests of the model's own: words of the spec and what they decode to, ill-formed
transactions, one-step tests with the expected results of 95_test_vectors.md, and for every statement
with hypotheses a witness that they can be met together. -/

open Sys2Proof Sys2Proof.Machine

namespace Sys2Proof.Tests

/-- The state after a command; the state itself where it stops. -/
def after (i : Instr) (s : State) : State :=
  match exec i s with
  | .next t    => t
  | .fault _   => s
  | .refused _ => s

/-- The words of the last response. -/
def answered (s : State) : List Word := (s.responses.getLast?.map Response.words).getD []

/-- The state after a step; the state itself where it stops. -/
def afterStep (s : State) : State :=
  match step s with
  | .next t    => t
  | .fault _   => s
  | .refused _ => s

/-- The 25 bytes of pack(16 × 1024) as 7 words (95 L1.1). -/
def frame1024 : Vector Word 7 :=
  #v[0x2004000F, 0x40080100, 0x80100200, 0x00200400, 0x00400801, 0x00801002, 0x00000000]

/-- A state with the host port 0 command c presented. -/
def presented (c : Command) : State := { State.reset with queue := [(0, c)] }

/-! ### Decoding: words written out from R340 and R361 -/

theorem test_decode_nop : decode ⟨0x00000000, []⟩ = .ok .nop := by decide
theorem test_decode_ctSet : decode ⟨0x01001F01, [0xFFFFFFFB]⟩ = .ok (.ctSet 1 15 0xFFFFFFFB) := by decide
theorem test_decode_ctSet_ch2 : decode ⟨0x01000201, [0x00001000]⟩ = .ok (.ctSet 0 1 0x1000) := by decide
theorem test_decode_ctGet : decode ⟨0x00000202, []⟩ = .ok (.ctGet 0 1) := by decide
theorem test_decode_ctSnapshot : decode ⟨0x00000103, []⟩ = .ok (.ctSnapshot 1) := by decide
theorem test_decode_sbusEncode : decode ⟨0x10000010, List.replicate 16 0x400⟩
    = .ok (.sbusEncode (Vector.replicate 16 0x400)) := by decide
theorem test_decode_sbusDecode : decode ⟨0x07000011, frame1024.toList⟩ = .ok (.sbusDecode frame1024) := by decide
theorem test_decode_fsPush : decode ⟨0x00550020, []⟩ = .ok (.fsPush 0x55) := by decide
theorem test_decode_lqObserve : decode ⟨0x02000030, [0x87, 0x05]⟩ = .ok (.lqObserve 135 5) := by decide
theorem test_decode_tick : decode ⟨0x00000040, []⟩ = .ok .tick := by decide
theorem test_decode_ppmToSbus : decode ⟨0x01000050, [0x320]⟩ = .ok (.ppmToSbus 800) := by decide
theorem test_decode_sbusToPpm : decode ⟨0x01000051, [0x3E9]⟩ = .ok (.sbusToPpm 1001) := by decide
theorem test_decode_cfgRd : decode ⟨0x00FF0060, []⟩ = .ok (.cfgRd 0xFF) := by decide
theorem test_decode_cfgWr : decode ⟨0x01070061, [1]⟩ = .ok (.cfgWr 7 1) := by decide
theorem test_decode_dgramRx : decode ⟨0x07000070, 0x00000F01 :: List.replicate 6 0⟩
    = .ok (.dgramRx #v[0x00000F01, 0, 0, 0, 0, 0, 0]) := by decide
theorem test_encode_ctSet : encode (.ctSet 1 15 0xFFFFFFFB) = ⟨0x01001F01, [0xFFFFFFFB]⟩ := by decide
theorem test_encode_cfgWr : encode (.cfgWr 0x01 50) = ⟨0x01010061, [0x00000032]⟩ := by decide

/-! ### Ill-formed transactions (R350; 95 ILL-1 to ILL-11) and the checks of WellFormed.lean -/

theorem test_ill_opcode : Command.wellFormed ⟨0x00000004, []⟩ = false ∧
    decode ⟨0x00000004, []⟩ = .error .noSuchOpcode := by decide
theorem test_ill_reserved_low : Command.wellFormed ⟨0x00002002, []⟩ = false ∧
    decode ⟨0x00002002, []⟩ = .error .fieldMismatch := by decide
theorem test_ill_reserved_low_ctSet : Command.wellFormed ⟨0x01002001, [0]⟩ = false ∧
    decode ⟨0x01002001, [0]⟩ = .error .fieldMismatch := by decide
theorem test_ill_reserved_high : Command.wellFormed ⟨0x80000040, []⟩ = false ∧
    decode ⟨0x80000040, []⟩ = .error .fieldMismatch := by decide
theorem test_ill_nops : Command.wellFormed ⟨0x01000040, [0]⟩ = false ∧
    decode ⟨0x01000040, [0]⟩ = .error .fieldMismatch := by decide
theorem test_ill_bus : Command.wellFormed ⟨0x00000140, []⟩ = false ∧
    decode ⟨0x00000140, []⟩ = .error .fieldMismatch := by decide
theorem test_ill_imm8 : Command.wellFormed ⟨0x00010040, []⟩ = false ∧
    decode ⟨0x00010040, []⟩ = .error .fieldMismatch := by decide
theorem test_ill_channel : Command.wellFormed ⟨0x00000203, []⟩ = false ∧
    decode ⟨0x00000203, []⟩ = .error .fieldMismatch := by decide
theorem test_ill_nop : Command.wellFormed ⟨0x00002000, []⟩ = false ∧
    decode ⟨0x00002000, []⟩ = .error .fieldMismatch := by decide
theorem test_ill_last_opcode : Command.wellFormed ⟨0x000000FF, []⟩ = false ∧
    decode ⟨0x000000FF, []⟩ = .error .noSuchOpcode := by decide
theorem test_ill_31_operands : takeTransaction (0x1F0000FF :: List.replicate 31 7 ++ [0x40])
    = some (⟨0x1F0000FF, List.replicate 31 7⟩, [0x40]) := by decide
/-- The operand count: a legal word with an operand word too few or too many. -/
theorem test_ill_operand_count : Command.wellFormed ⟨0x01000001, []⟩ = false ∧
    decode ⟨0x01000001, []⟩ = .error .operandCount ∧
    Command.wellFormed ⟨0x00000040, [0]⟩ = false := by decide
theorem test_wellFormed_accepts : Command.wellFormed ⟨0x01001F01, [0xFFFFFFFB]⟩ = true := by decide
theorem test_ill_answer :
    answered (afterStep (presented ⟨0x01000040, [0]⟩)) = [0x00000002] ∧
    (afterStep (presented ⟨0x01000040, [0]⟩)).counter .badCmd = 1 := by decide

/-! ### The host's two questions -/

theorem test_table_ctSet : decodeTableWord 32 0x01000001 = some (.ctSet 0 0 0) := by decide
theorem test_table_sbusEncode :
    decodeTableWord 32 0x10000010 = some (.sbusEncode (Vector.replicate 16 0)) := by decide
theorem test_table_illegal : decodeTableWord 32 0x00002000 = none := by decide
theorem test_fetch_cfgRd :
    answered (afterStep (State.reset.withFetchWord 32 0x00020060)) = [0x01000000, 0x00004000] := by decide
theorem test_fetch_dgramRx :
    answered (afterStep (State.reset.withFetchWord 32 0x07000070)) = [0x00000004] := by decide

/-! ### One step of each command (the vector of 95_test_vectors.md is named) -/

/-- CT-2: clamped to 0 in slot CT[1][15]. -/
theorem test_ctSet_low : (after (.ctSet 1 15 0xFFFFFFFB) State.reset).slot 1 15 = 0 := by decide
/-- CT-3: 4096 is clamped to 2047, not wrapped. -/
theorem test_ctSet_high : (after (.ctSet 0 1 0x1000) State.reset).slot 0 1 = 2047 := by decide
/-- CT-6. -/
theorem test_ctGet :
    answered (after (.ctGet 0 0) (State.reset.writeSlot 0 0 1500)) = [0x01000000, 0x000005DC] := by decide
/-- CT-9's shape: 16 result words. -/
theorem test_ctSnapshot : answered (after (.ctSnapshot 1) (State.reset.writeSlot 1 15 7))
    = 0x10000000 :: List.replicate 15 0 ++ [7] := by decide
/-- CODEC-9. -/
theorem test_sbusEncode_clamps : answered (after (.sbusEncode #v[0xFFFFFFFF, 5000, 0x7FFFFFFF,
      0x80000000, 0, 0, 0, 0, 0, 0, 0, 0, 0, 0, 0, 0]) State.reset)
    = [0x07000000, 0xFFF8000F, 0x000001FF, 0, 0, 0, 0, 0] := by decide
/-- CODEC-4. -/
theorem test_sbusEncode : answered (after (.sbusEncode (Vector.ofFn fun i : Fin 16 => BitVec.ofNat 32 i.val))
      State.reset) = [0x07000000, 0x8008000F, 0x80400600, 0x00E01802, 0x02804808, 0x0680C016, 0x0001E038, 0] := by
  decide
/-- CODEC-10. -/
theorem test_sbusDecode :
    answered (after (.sbusDecode frame1024) State.reset) = 0x10000000 :: List.replicate 16 0x400 := by decide
/-- CODEC-12: byte 24 is 0x01. -/
theorem test_sbusDecode_badMarker :
    answered (after (.sbusDecode (frame1024.set 6 1)) State.reset) = 0x10000001 :: List.replicate 16 0 := by decide
/-- FS-1. -/
theorem test_fsPush_start : (after (.fsPush 0x0F) State.reset).status = 0x00000104 := by decide
/-- FS-4: byte 24 = 22 ends a candidate with a 0x0F at index 5; 20 bytes are kept. -/
theorem test_fsPush_resync : (answered (after (.fsPush 0x22) { State.reset with
      fsBuf := #v[0x0F, 1, 2, 3, 4, 0x0F, 0x11, 0x11, 0x11, 0x11, 0x11, 0x11, 0x11, 0x11, 0x11, 0x11, 0x11,
        0x11, 0x11, 0x11, 0x11, 0x11, 0x11, 0x11, 0]
      fsCnt := 24 })).take 2 = [0x11000000, 0x00001402] := by decide
/-- LQ-1. -/
theorem test_lqObserve_seeds : (after (.lqObserve 135 5) State.reset).fRssi.toInt = -8847360 ∧
    answered (after (.lqObserve 135 5) State.reset) = [0x01000000, 3] := by decide
/-- R553 by hand at ALPHA = 0x4000: (0 + 1)·0x4000 div 65536 = 0 and (0 - 1)·0x4000 div 65536 = -1. -/
theorem test_lqObserve_rounds :
    (after (.lqObserve 0 0) { State.reset with lqSeeded := true, fRssi := -1 }).fRssi.toInt = -1 ∧
    (after (.lqObserve 0 0) { State.reset with lqSeeded := true, fRssi := 1 }).fRssi.toInt = 0 := by decide
/-- TK-5: the second record is rejected. -/
theorem test_tick_two_buses :
    answered (after .tick { State.reset with ctrl := 0x04, txDraws := [.accept, .reject] })
      = [0x01000000, 0x0000000A] := by decide
/-- TK-9 and TK-10: only the timer's TICK clears TICK_PEND. -/
theorem test_tick_pend :
    (after .tick { State.reset with tickPend := true, txDraws := [.accept], src := .timer }).tickPend = false ∧
    (after .tick { State.reset with tickPend := true, txDraws := [.accept] }).tickPend = true := by decide
/-- PPM-1 and PPM-9. -/
theorem test_ppmToSbus : answered (after (.ppmToSbus 875) State.reset) = [0x01000000, 1] ∧
    answered (after (.ppmToSbus 2153) State.reset) = [0x01000000, 0x7FF] := by decide
/-- PPM-29 and PPM-32. -/
theorem test_sbusToPpm : answered (after (.sbusToPpm 2045) State.reset) = [0x01000000, 2152] ∧
    answered (after (.sbusToPpm 0xFFFFFFFF) State.reset) = [0x01000000, 0] := by decide
/-- Reads after reset: SNR_MIN, and an unassigned number. -/
theorem test_cfgRd : answered (after (.cfgRd 0x03) State.reset) = [0x01000000, 0xFFFFFFF6] ∧
    answered (after (.cfgRd 0x1D) State.reset) = [0x01000003, 0] := by decide
/-- CFG-1 and CFG-7. -/
theorem test_cfgWr : (after (.cfgWr 0x00 0xFFFFFFFF) State.reset).readReg .ctrl = 0x7F ∧
    answered (after (.cfgWr 0x10 5) State.reset) = [0x00000003] := by decide
/-- DG-1. -/
theorem test_dgramRx : (after (.dgramRx #v[0x04000F21, 0x08010020, 0x10020040, 0x20040080, 0x40080100,
    0x80100200, 0]) State.reset).ct[1] = Vector.replicate 16 1024 := by decide
/-- DG-5: the type is checked before the markers. -/
theorem test_dgramRx_type : answered (after (.dgramRx #v[0x28050000, 0, 0, 0, 0, 0, 0]) State.reset)
    = [0x00000004] := by decide
theorem test_nop : answered (after .nop State.reset) = [0x00000000] := by decide
/-- TM-1: at F_REF = 1000 and 25 Hz the 40th cycle fires. -/
theorem test_timer : (({ State.reset with ctrl := 0x08, tmrCnt := 39 } : State).timerCycle 1000).tickPend = true ∧
    (({ State.reset with ctrl := 0x08, tmrCnt := 38 } : State).timerCycle 1000).tmrCnt = 39 := by decide
/-- AD-1: the bytes 87 05 are -121 and 5. -/
theorem test_radioStatus :
    (afterStep { State.reset with rsRx := [(0x87, 0x05)] }).fRssi.toInt = 121 * 65536 := by decide

/-! ### Witnesses: the hypotheses of each statement are met together -/

/-- A frame with the start marker, all-zero payload and the end marker. -/
def zeroFrame : Frame := (Vector.replicate 25 0).set 0 0x0F

/-- 24 collected bytes 0F 00 .. 00 0F 11 .., with a second 0x0F at index `k`. -/
def fullBuffer (k : Fin 25) : Frame := ((Vector.replicate 25 0x11).set k 0x0F).set 0 0x0F

/-- One byte away from a judgement. -/
def almostFull (f : Frame) : State := { State.reset with fsBuf := f, fsCnt := 24 }

/-- For DecodeThenEncode. -/
theorem witness_DecodeThenEncode : decode ⟨0x01001F01, [5]⟩ = .ok (.ctSet 1 15 5) := by decide

/-- For IllegalExactlyByRule350: a legal and an illegal complete transaction. -/
theorem witness_IllegalExactlyByRule350 :
    ((⟨0x01001F01, [5]⟩ : Command).complete = true ∧ Word.legal 0x01001F01 = true) ∧
    ((⟨0x01000040, [5]⟩ : Command).complete = true ∧ Word.legal 0x01000040 = false) := by decide

/-- For NoWordSelectsTwoRows. -/
theorem witness_NoWordSelectsTwoRows : (0x01001F01 : Word) &&& Opcode.ctSet.row.mask = Opcode.ctSet.row.match' := by
  decide

/-- For TransactionLength: exactly enough operand words, and one too few. -/
theorem witness_TransactionLength :
    (0x01000001 : Word).toNat / 2 ^ 24 % 32 ≤ [(5 : Word)].length ∧
    ([] : List Word).length < (0x01000001 : Word).toNat / 2 ^ 24 % 32 := by decide

/-- For StepRunsDecodedCommand: a grant, an input, nothing to pick, and a placed command. -/
theorem witness_StepRunsDecodedCommand :
    (presented ⟨0, []⟩).pick = some (.grant (.host 0)) ∧
    (∃ t, (presented ⟨0, []⟩).chosen.takeCommand (.host 0) = some (⟨0, []⟩, t)) ∧
    decode ⟨0, []⟩ = .ok .nop ∧
    (let s : State := { State.reset with inbox := [.serByte 0x0F] };
      s.pick = some .input ∧ s.inbox = .serByte 0x0F :: []) ∧
    State.reset.pick = none ∧ decodeTableWord 32 0x00000040 = some .tick :=
  ⟨by decide, ⟨_, rfl⟩, by decide, by decide, by decide, by decide⟩

/-- Two ports with presented commands. -/
def twoPorts : State := { State.reset with queue := [(0, ⟨0x40, []⟩), (1, ⟨0, []⟩), (0, ⟨2, []⟩)] }

/-- For PortQueueIsFifo. -/
theorem witness_PortQueueIsFifo : twoPorts.portQueue 0 = ⟨0x40, []⟩ :: [⟨2, []⟩] ∧ (1 : Nat) ≠ 0 := by decide

/-- For InternalPortsIssueTheirCommands: every internal source ready. -/
def internalsReady : State :=
  { State.reset with serRx := [0x0F], dgRx := [Vector.replicate 26 0], rsRx := [(0x87, 0x05)], tickPend := true }

theorem witness_InternalPortsIssueTheirCommands :
    internalsReady.serRx = 0x0F :: [] ∧ internalsReady.dgRx = Vector.replicate 26 0 :: [] ∧
    internalsReady.rsRx = (0x87, 0x05) :: [] ∧ internalsReady.tickPend = true := by decide

/-- For InputsQueueOrDrop: lengths beside the right ones. -/
theorem witness_InputsQueueOrDrop : State.reset.inReset = false ∧
    (List.replicate 25 (0 : Byte)).length ≠ 26 ∧ (List.replicate 27 (0 : Byte)).length ≠ 26 ∧
    (List.replicate 1 (0 : Byte)).length ≠ 2 ∧ (List.replicate 3 (0 : Byte)).length ≠ 2 := by decide

/-- For ArbiterPicksReady. -/
theorem witness_ArbiterPicksReady : (presented ⟨0, []⟩).pick = some (.grant (.host 0)) ∧
    (presented ⟨0, []⟩).ready ≠ [] ∧ Agent.grant (.host 1) ∈ twoPorts.ready := by decide

/-- For HostWordsPresentWholeCommands: the last word of a command, and the first of a longer one. -/
theorem witness_HostWordsPresentWholeCommands :
    (State.reset.inReset = false ∧ takeTransaction (State.reset.portWords 3) = none ∧
      State.reset.portWords 3 ++ [(0x02000030 : Word)] = 0x02000030 :: [] ∧
      ([] : List Word).length ≠ (0x02000030 : Word).toNat / 2 ^ 24 % 32) ∧
    (let s : State := { State.reset with arriving := [(3, 0x02000030), (3, 7)] };
      s.inReset = false ∧ takeTransaction (s.portWords 3) = none ∧
      s.portWords 3 ++ [(8 : Word)] = 0x02000030 :: [7, 8] ∧
      ([7, 8] : List Word).length = (0x02000030 : Word).toNat / 2 ^ 24 % 32 ∧ (4 : Nat) ≠ 3) := by decide

/-- For ResetInputDiscardsEverything. -/
theorem witness_ResetInputDiscardsEverything :
    let s : State := { State.reset with inReset := true, inbox := [.serByte 0x0F] }
    s.inReset = true ∧ (∀ b, Input.serByte 0x0F ≠ .reset b) ∧ s.pick = some .input ∧
    State.reset.inReset = false := by decide

/-- Each invariant at reset and a step from there. -/
theorem reset_inv : Inv State.reset where
  marker := by intro h; exact absurd h (by decide)
  bounded := by unfold FilterBounded Bounded; decide
  unseeded := fun _ => ⟨rfl, rfl, rfl⟩
  framed := ⟨fun e he => by simp [State.reset] at he, fun _ => rfl⟩
  reset := fun h => absurd h (by decide)

/-- For the StepKeeps statements. -/
theorem witness_StepKeeps : ∃ t, Inv State.reset ∧ (∀ n, PortsBelow n State.reset) ∧ step State.reset = .next t :=
  ⟨State.reset, reset_inv, fun n => ⟨fun e he => by simp [State.reset] at he, fun e he => by simp [State.reset] at he,
    fun p w he => by simp [State.reset] at he⟩, rfl⟩

/-- For StepKeepsCollectingMarker: collecting, and the step of a judgement that resumes. -/
theorem witness_StepKeepsCollectingMarker :
    let s : State := { almostFull (fullBuffer 5) with serRx := [0x22] }
    (1 ≤ s.fsCnt.val → s.fsBuf[0] = startMarker) ∧ (afterStep s).fsCnt = 20 ∧ step s = .next (afterStep s) := by
  refine ⟨by decide, by decide, rfl⟩

/-- For StepKeepsFilterBounded: the bound itself is met, and reached by the extreme sample (LQ-6). -/
theorem witness_StepKeepsFilterBounded :
    let s := presented ⟨0x02000030, [0x80000000, 0x80000000]⟩
    FilterBounded s ∧ step s = .next (afterStep s) ∧ (afterStep s).fRssi.toInt = 2 ^ 47 := by
  refine ⟨by unfold FilterBounded Bounded; decide, rfl, by decide⟩

/-- For StepKeepsPortsFramed and StepKeepsPortsBelow: a word that completes a command. -/
theorem witness_StepKeepsPorts :
    let s : State := { State.reset with arriving := [(3, 0x01000001)], inbox := [.hostWord 3 7] }
    (∀ e ∈ s.queue, e.2.complete = true) ∧ (∀ e ∈ s.arriving, e.1 < 4) ∧
    (afterStep s).portQueue 3 = [⟨0x01000001, [7]⟩] ∧ step s = .next (afterStep s) := by
  refine ⟨by decide, by decide, by decide, rfl⟩

/-- For StepKeepsUnsetAndHeld: unset with a step that observes, and held in reset. -/
theorem witness_StepKeepsUnsetAndHeld :
    UnseededAtReset (presented ⟨0x02000030, [135, 5]⟩) ∧
    step (presented ⟨0x02000030, [135, 5]⟩) = .next (afterStep (presented ⟨0x02000030, [135, 5]⟩)) ∧
    HeldInReset (State.reset.toReset true) ∧ (State.reset.toReset true).inReset = true :=
  ⟨fun _ => ⟨rfl, rfl, rfl⟩, rfl, fun _ => rfl, rfl⟩

/-- For EachElementHasItsWriters: a command outside each group, and FS_PUSH with FS_STORE = 0. -/
theorem witness_EachElementHasItsWriters : exec .nop State.reset = .next (after .nop State.reset) ∧
    Instr.nop.opcode ≠ .lqObserve ∧ Instr.nop.opcode ≠ .ctSet ∧ Instr.nop.opcode ≠ .dgramRx ∧
    Instr.nop.opcode ≠ .fsPush ∧ Instr.nop.opcode ≠ .cfgWr ∧ Instr.nop.opcode ≠ .cfgRd ∧
    Instr.nop.opcode ≠ .tick ∧
    exec (.fsPush 0x0F) State.reset = .next (after (.fsPush 0x0F) State.reset) ∧
    State.reset.ctrl.getLsbD 4 = false :=
  ⟨rfl, by decide, by decide, by decide, by decide, by decide, by decide, by decide, rfl, by decide⟩

/-- For FailsafeDeadZone: FAILSAFE raised by an observation (LQ-1), and cleared by one (LQ-9). -/
theorem witness_FailsafeDeadZone :
    (let s := presented ⟨0x02000030, [135, 5]⟩;
      step s = .next (afterStep s) ∧ (afterStep s).failsafe ≠ s.failsafe) ∧
    (let s : State := { presented ⟨0x02000030, [60, 100]⟩ with
        failsafe := true, lqSeeded := true, fRssi := -8847360, fNoise := -327680, alpha := 0xFFFF };
      step s = .next (afterStep s) ∧ s.failsafe = true ∧ (afterStep s).failsafe = false) := by
  refine ⟨⟨rfl, by decide⟩, rfl, by decide, by decide⟩

/-- For TickPendSetByClockClearedByTimer: a host's command leaves a pending tick, the timer's TICK ends
it. -/
theorem witness_TickPendSetByClockClearedByTimer :
    (let s : State := { presented ⟨0, []⟩ with tickPend := true, sched := [.grant (.host 0)] };
      step s = .next (afterStep s) ∧ s.pick ≠ some .clock ∧ (afterStep s).tickPend = true) ∧
    (let s : State := { State.reset with tickPend := true, txDraws := [.accept] };
      step s = .next (afterStep s) ∧ s.tickPend = true ∧ (afterStep s).tickPend = false) := by
  refine ⟨⟨rfl, by decide, by decide⟩, rfl, by decide, by decide⟩

/-- For OneResponsePerCommand: a host port and an internal one. -/
theorem witness_OneResponsePerCommand :
    (exec (.ctGet 0 0) State.reset = .next (after (.ctGet 0 0) State.reset) ∧ State.reset.src = .host 0) ∧
    (let s : State := { State.reset with src := .timer };
      exec .nop s = .next (after .nop s) ∧ ∀ p, s.src ≠ .host p) :=
  ⟨⟨rfl, rfl⟩, rfl, fun _ h => by cases h⟩

/-- For CtSetStoresClamped: another channel, and the same channel of the other bus. -/
theorem witness_CtSetStoresClamped :
    ((0 : BusIx), (14 : ChIx)) ≠ (0, 15) ∧ ((1 : BusIx), (15 : ChIx)) ≠ (0, 15) := by decide

/-- For SnapshotSeesEveryCompletedSet. -/
theorem witness_SnapshotSeesEveryCompletedSet :
    (([(0, 100), (1, 5000)] : List (ChIx × Word)).map Prod.fst).Nodup ∧
    ((0, 100) : ChIx × Word) ∈ [(0, 100), (1, 5000)] ∧
    (15 : ChIx) ∉ ([(0, 100), (1, 5000)] : List (ChIx × Word)).map Prod.fst := by decide

/-- For FrameBitLayout: the first and the last bit, and two frames that differ in byte 23 only. -/
theorem witness_FrameBitLayout : ((0 : Nat) < 16 ∧ (0 : Nat) < 11) ∧ ((15 : Nat) < 16 ∧ (10 : Nat) < 11) ∧
    (∀ k : Fin 25, k ≠ 23 → zeroFrame[k] = (zeroFrame.set 23 0xFF)[k]) ∧ zeroFrame ≠ zeroFrame.set 23 0xFF := by
  decide

/-- For CodecRoundTrip. -/
theorem witness_CodecRoundTrip : markersOk zeroFrame = true ∧ zeroFrame[23] = 0x00 ∧
    pack (Vector.replicate 16 0) = zeroFrame := by decide

/-- For FramesInWords: the last byte place of the padded last word of a frame. -/
theorem witness_FramesInWords : 6 < (wordsFromFrame zeroFrame.toList).length ∧ (3 : Nat) < 4 := by decide

/-- For SbusDecodeAnswersChannels: good markers, a bad start, a bad end. -/
theorem witness_SbusDecodeAnswersChannels :
    (byteOfWords frame1024 0 (by omega) = 0x0F ∧ byteOfWords frame1024 24 (by omega) = 0x00) ∧
    byteOfWords (frame1024.set 0 0x2004000E) 0 (by omega) ≠ 0x0F ∧
    byteOfWords (frame1024.set 6 1) 24 (by omega) ≠ 0x00 := by decide

/-- For FsPushSearchesAndCollects: Searching, and the first and last counts of Collecting. -/
theorem witness_FsPushSearchesAndCollects : State.reset.fsCnt.val = 0 ∧ (0x55 : Byte) ≠ 0x0F ∧
    (let s : State := { State.reset with fsCnt := 1 }; 1 ≤ s.fsCnt.val ∧ s.fsCnt.val < 24) ∧
    (let s : State := { State.reset with fsCnt := 23 }; 1 ≤ s.fsCnt.val ∧ s.fsCnt.val < 24) := by decide

/-- For FsPushEmits. -/
theorem witness_FsPushEmits : (almostFull zeroFrame).fsCnt.val = 24 ∧ (almostFull zeroFrame).fsBuf[0] = 0x0F := by
  decide

/-- For FsPushResyncsOrDrops: a later marker at index 1. -/
theorem witness_FsPushResyncs_first :
    let f := (almostFull (fullBuffer 1)).fsBuf.set 24 0x22
    (almostFull (fullBuffer 1)).fsCnt.val = 24 ∧ f[24] ≠ 0x00 ∧ f[(1 : Fin 25)] = 0x0F ∧
      ∀ i : Fin 25, 1 ≤ i.val → i < 1 → f[i] ≠ 0x0F :=
  ⟨rfl, by decide, by decide, fun i h h' => absurd h' (by have : ¬i.val < 1 := by omega
                                                          exact this)⟩

/-- For FsPushResyncsOrDrops: a later marker at index 24 only. -/
theorem witness_FsPushResyncs_last :
    let f := (fullBuffer 0).set 24 0x0F
    f[24] ≠ 0x00 ∧ f[(24 : Fin 25)] = 0x0F ∧ ∀ i : Fin 25, 1 ≤ i.val → i < 24 → f[i] ≠ 0x0F := by decide +kernel

/-- For FsPushResyncsOrDrops: no later marker, with a bad end and with a bad start. -/
theorem witness_FsPushDrops :
    (let f := (fullBuffer 0).set 24 0x22; f[24] ≠ 0x00 ∧ ∀ i : Fin 25, 1 ≤ i.val → f[i] ≠ 0x0F) ∧
    (let f := (Vector.replicate 25 0x11 : Frame).set 24 0x00; f[0] ≠ 0x0F ∧
      ∀ i : Fin 25, 1 ≤ i.val → f[i] ≠ 0x0F) := by decide +kernel

/-- For CleanStreamEmitsEveryFrame: whole frames only, and all but the last byte of the next. -/
theorem witness_CleanStreamEmitsEveryFrame : State.reset.fsCnt.val = 0 ∧
    (∀ f ∈ [zeroFrame, zeroFrame.set 23 0xFF], markersOk f = true) ∧ markersOk zeroFrame = true ∧
    0 < 25 ∧ 24 < 25 := by
  refine ⟨rfl, fun f hf => ?_, by decide⟩
  rcases List.mem_pair.mp hf with rfl | rfl <;> decide

/-- For BurstWithoutMarkerLosesNoFrame (FS-3's burst). -/
theorem witness_BurstWithoutMarkerLosesNoFrame : State.reset.fsCnt.val = 0 ∧
    (0x0F : Byte) ∉ [0x00, 0xFF, 0x55, 0x0E, 0x10] ∧ markersOk zeroFrame = true := by decide

/-- For FsPushReadsOnlyCollectedBytes: the same collected byte before different stale ones. -/
theorem witness_FsPushReadsOnlyCollectedBytes :
    let s : State := { State.reset with fsBuf := zeroFrame, fsCnt := 1 }
    let t : State := { State.reset with fsBuf := fullBuffer 0, fsCnt := 1 }
    s.fsCnt = t.fsCnt ∧ (∀ i : Fin 25, i < s.fsCnt → s.fsBuf[i] = t.fsBuf[i]) ∧ s.fsBuf ≠ t.fsBuf ∧
    exec (.fsPush 0x55) s = .next (after (.fsPush 0x55) s) ∧ exec (.fsPush 0x55) t = .next (after (.fsPush 0x55) t) :=
  ⟨rfl, by decide, by decide, rfl, rfl⟩

/-- For LqObserveSeeds. -/
theorem witness_LqObserveSeeds : State.reset.lqSeeded = false := rfl

/-- For LqObserveUpdates. -/
theorem witness_LqObserveUpdates : ({ State.reset with lqSeeded := true } : State).lqSeeded = true := rfl

/-- For HysteresisDecides: an entering, a clearing and a dead-zone observation (LQ-1, LQ-9, LQ-4). -/
theorem witness_HysteresisDecides :
    (let t := after (.lqObserve 135 5) State.reset;
      t.fRssi.toInt - t.fNoise.toInt < State.reset.snrMin.toInt * 2 ^ 16) ∧
    (let t := after (.lqObserve 60 100) State.reset;
      t.fRssi.toInt - t.fNoise.toInt > State.reset.snrMax.toInt * 2 ^ 16 ∧
        t.fRssi.toInt > State.reset.rssiMax.toInt * 2 ^ 16) ∧
    (let t := after (.lqObserve 127 120) State.reset;
      ¬(t.fRssi.toInt - t.fNoise.toInt < State.reset.snrMin.toInt * 2 ^ 16 ∨
        t.fRssi.toInt < State.reset.rssiMin.toInt * 2 ^ 16) ∧
      ¬(t.fRssi.toInt - t.fNoise.toInt > State.reset.snrMax.toInt * 2 ^ 16 ∧
        t.fRssi.toInt > State.reset.rssiMax.toInt * 2 ^ 16)) := by decide

/-- For TickSuppressedByFailsafe. -/
theorem witness_TickSuppressedByFailsafe :
    let s : State := { State.reset with ctrl := 0x01, failsafe := true }
    s.ctrl.getLsbD 0 = true ∧ s.failsafe = true := by decide

/-- A state with the given CTRL and the transport's next answers settled. -/
def sending (ctrl : BitVec 7) (draws : List TxOutcome) : State :=
  { State.reset with ctrl := ctrl, txDraws := draws }

/-- For TickSendsOneBus: both answers. -/
theorem witness_TickSendsOneBus :
    ¬((sending 0x40 []).ctrl.getLsbD 0 = true ∧ (sending 0x40 []).failsafe = true) ∧
    (sending 0x40 []).ctrl.getLsbD 2 = false ∧ (sending 0x40 []).ctrl.getLsbD 6 = true ∧
    (sending 0x40 [.accept]).draw = .accept ∧ (sending 0x40 [.reject]).draw = .reject := by decide

/-- For TickSendsTwoBuses: each order of answers. -/
theorem witness_TickSendsTwoBuses :
    let second (s : State) := ({ s with txDraws := s.txDraws.tail, drawCount := s.drawCount + 1 } : State).draw
    ¬((sending 0x04 []).ctrl.getLsbD 0 = true ∧ (sending 0x04 []).failsafe = true) ∧
    (sending 0x04 []).ctrl.getLsbD 2 = true ∧ (sending 0x04 [.reject]).draw = .reject ∧
    (sending 0x04 [.accept, .accept]).draw = .accept ∧ second (sending 0x04 [.accept, .accept]) = .accept ∧
    (sending 0x04 [.accept, .reject]).draw = .accept ∧ second (sending 0x04 [.accept, .reject]) = .reject := by
  decide

/-- For FarEndHasAPrefix: none and all of a rejected record. -/
theorem witness_FarEndHasAPrefix : (⟨0, [1, 2], .accept⟩ : TxRecord).outcome = .accept ∧
    (⟨0, [1, 2], .reject⟩ : TxRecord).outcome = .reject ∧ (0 : Nat) ≤ [(1 : Byte), 2].length ∧
    2 ≤ [(1 : Byte), 2].length ∧
    ({ State.reset with tx := [⟨0, [1, 2], .accept⟩, ⟨1, [1, 2], .reject⟩] } : State).tx[1]?
      = some ⟨1, [1, 2], .reject⟩ := by decide

/-- For TimerCycle: the timer off, rate 0, a firing with TICK_PEND clear and set, a count, a step of
the clock, and a clock left out. -/
theorem witness_TimerCycle :
    State.reset.ctrl.getLsbD 3 = false ∧
    (let s : State := { State.reset with ctrl := 0x08, gndFreq := 0 };
      s.ctrl.getLsbD 3 = true ∧ s.gndFreq.toNat = 0) ∧
    (let s : State := { State.reset with ctrl := 0x08, tmrCnt := 39 };
      s.ctrl.getLsbD 3 = true ∧ s.gndFreq.toNat = 25 ∧ s.tmrCnt.toNat + 1 ≥ max 1 (1000 / 25) ∧ s.tickPend = false) ∧
    (let s : State := { State.reset with ctrl := 0x08, tmrCnt := 39, tickPend := true };
      s.tmrCnt.toNat + 1 ≥ max 1 (1000 / 25) ∧ s.tickPend = true) ∧
    (let s : State := { State.reset with ctrl := 0x08, tmrCnt := 38 };
      s.tmrCnt.toNat + 1 < max 1 (1000 / 25) ∧ s.tmrCnt.toNat + 1 < 2 ^ 32) ∧
    ({ State.reset with ctrl := 0x08 } : State).pick = some .clock ∧ State.reset.timerLive = false := by decide

/-- For TimerFiresAtCycleN: TM-1, and TM-4 with N = 1. -/
theorem witness_TimerFiresAtCycleN :
    (let s : State := { State.reset with ctrl := 0x08 };
      25 = (if s.ctrl.getLsbD 0 then (if s.ctrl.getLsbD 1 then 140 else 70) else s.gndFreq.toNat) ∧
      s.ctrl.getLsbD 3 = true ∧ s.tmrCnt = 0 ∧ s.tickPend = false ∧ max 1 (1000 / 25) ≤ 2 ^ 32 ∧
      39 < max 1 (1000 / 25)) ∧
    (let s : State := { State.reset with ctrl := 0x09 };
      70 = (if s.ctrl.getLsbD 0 then (if s.ctrl.getLsbD 1 then 140 else 70) else s.gndFreq.toNat) ∧
      s.ctrl.getLsbD 3 = true ∧ max 1 (10 / 70) = 1) := by decide

/-- For PpmFormulasAreExact, PpmRoundTrips and PpmMonotone: the ends of their ranges. -/
theorem witness_PpmRanges : ((875 : Int) ≤ 875 ∧ (875 : Int) ≤ 2152) ∧ ((875 : Int) ≤ 2152 ∧ (2152 : Int) ≤ 2152) ∧
    ((1 : Int) ≤ 1 ∧ (1 : Int) ≤ 2046) ∧ ((1 : Int) ≤ 2046 ∧ (2046 : Int) ≤ 2046) ∧
    ((0 : Int) ≤ 0 ∧ (0 : Int) ≤ 2047) ∧ ((0 : Int) ≤ 2047 ∧ (2047 : Int) ≤ 2047) ∧
    ((800 : Int) ≤ 800 ∧ (800 : Int) ≤ 2200 ∧ (2200 : Int) ≤ 2200) := by decide

/-- For PpmConversions: values on both sides of every knee. -/
theorem witness_PpmConversions :
    (799#32).toInt < 800 ∧ ¬((800#32).toInt < 800 ∨ (800#32).toInt > 2200) ∧ (874#32).toInt ≤ 874 ∧
    ¬((875#32).toInt ≤ 874) ∧ ¬((2152#32).toInt ≥ 2153) ∧ (2153#32).toInt ≥ 2153 ∧ (2201#32).toInt > 2200 ∧
    (0xFFFFFFFF#32).toInt < 0 ∧ (0#32).toInt = 0 ∧ (2047#32).toInt = 2047 ∧ (2048#32).toInt > 2047 := by decide

/-- For CfgRdAnswers and CfgWrWrites: the ends of the unassigned and the read-only numbers. -/
theorem witness_CfgNumbers :
    (0x0C ≤ (0x0C#8).toNat ∧ (0x0C#8).toNat ≤ 0x0F) ∧ (0x0C ≤ (0x0F#8).toNat ∧ (0x0F#8).toNat ≤ 0x0F) ∧
    0x1D ≤ (0x1D#8).toNat ∧ 0x1D ≤ (0xFF#8).toNat ∧ 0x07 ≤ (0x07#8).toNat ∧ 0x07 ≤ (0xFF#8).toNat := by decide

/-- For LatchedPairIsOneValue: an observation and the other pair's read between the two reads. -/
theorem witness_LatchedPairIsOneValue :
    (∀ i ∈ [Instr.lqObserve 0xFFFFFF38 0, Instr.cfgRd 0x0A], i ≠ .cfgRd 0x08) ∧
    (∀ i ∈ [Instr.lqObserve 0xFFFFFF38 0, Instr.cfgRd 0x08], i ≠ .cfgRd 0x0A) := by decide

/-- The envelope of DG-1 and the frame in it. -/
def dg1 : Vector Word 7 := #v[0x04000F21, 0x08010020, 0x10020040, 0x20040080, 0x40080100, 0x80100200, 0]

/-- For DgramRxChecksAndWrites: not SBUS mode, a bad start, a bad end, and DG-1. -/
theorem witness_DgramRxChecksAndWrites :
    ((byteOfWords (dg1.set 0 0x04000F01) 0 (by omega)).getLsbD 5 = false) ∧
    ((byteOfWords (dg1.set 0 0x04000E21) 0 (by omega)).getLsbD 5 = true ∧
      byteOfWords (dg1.set 0 0x04000E21) 1 (by omega) ≠ 0x0F) ∧
    ((byteOfWords (dg1.set 6 0x0000AA00) 0 (by omega)).getLsbD 5 = true ∧
      byteOfWords (dg1.set 6 0x0000AA00) 25 (by omega) ≠ 0x00) ∧
    ((byteOfWords dg1 0 (by omega)).getLsbD 5 = true ∧ byteOfWords dg1 1 (by omega) = 0x0F ∧
      byteOfWords dg1 25 (by omega) = 0x00) := by decide

/-- A run that makes one step and then waits for ever. -/
def oneStepRun (s : State) : Nat → State
  | 0     => s
  | _ + 1 => afterStep s

theorem oneStepRun_fair (s : State) (h : (afterStep s).ready = []) : WeaklyFair (oneStepRun s) := by
  intro src n hr
  have := hr (n + 1) (by omega)
  rw [show oneStepRun s (n + 1) = afterStep s from rfl, h] at this
  cases this

theorem oneStepRun_isRun (s : State) (h0 : step s = .next (afterStep s)) (h : (afterStep s).ready = []) :
    IsRun (oneStepRun s) := by
  intro n
  cases n with
  | zero => exact h0
  | succ n =>
    have hp : (afterStep s).pick = none := by
      unfold State.pick
      rw [h]
      split
      · rfl
      · rw [if_neg (by simp)]; rfl
    change step (afterStep s) = .next (afterStep s)
    unfold step
    rw [hp]

/-- For PendingTickRuns: the tick pends, runs, and the block waits. -/
theorem witness_PendingTickRuns :
    let r := oneStepRun { State.reset with tickPend := true, txDraws := [.accept] }
    IsRun r ∧ WeaklyFair r ∧ StaysReleased r 0 ∧ (r 0).tickPend = true := by
  refine ⟨oneStepRun_isRun _ rfl (by decide), oneStepRun_fair _ (by decide), fun m _ => ?_, rfl⟩
  cases m <;> rfl

/-- For PresentedCommandRuns: one NOP on port 2, then the block waits. -/
theorem witness_PresentedCommandRuns :
    let r := oneStepRun { State.reset with queue := [(2, ⟨0, []⟩)] }
    IsRun r ∧ WeaklyFair r ∧ StaysReleased r 0 ∧ (r 0).portQueue 2 = ⟨0, []⟩ :: [] := by
  refine ⟨oneStepRun_isRun _ rfl (by decide), oneStepRun_fair _ (by decide), fun m _ => ?_, by decide⟩
  cases m <;> rfl

end Sys2Proof.Tests
end

section
/-! PROOFS. No step invents a port (R27, R201): the words, commands and coming inputs of a state are
of host ports the state before it already had. -/

namespace Sys2Proof.Machine

variable {n : Nat} {s t : State}

/-- A command word, legal or not, leaves the ports alone (R341). -/
theorem runCommand_samePorts {c : Command} (h : runCommand c s = .next t) : SamePorts s t := by
  unfold runCommand at h
  split at h
  · exact exec_samePorts s h
  · cases h
    exact ⟨rfl, rfl, rfl, rfl, rfl, rfl, rfl, rfl, rfl, rfl⟩

/-- A grant takes commands off the port queues and puts none there (R221). -/
theorem takeCommand_queue_subset {src : Source} {c : Command} (h : s.takeCommand src = some (c, t)) :
    t.queue ⊆ s.queue := by
  cases src with
  | host p =>
    simp only [State.takeCommand] at h
    split at h <;> cases h
    exact List.eraseP_subset
  | serRx | dgRx | rsRx | timer =>
    simp only [State.takeCommand] at h
    split at h <;> cases h
    exact List.Subset.refl _

/-- A step is idle, or it is the move of one agent after the pick is noted (R221, R903). -/
theorem step_eq_next (h : step s = .next t) : t = s ∨ ∃ a, move a s.chosen = .next t := by
  unfold step at h
  split at h
  · exact .inr ⟨_, h⟩
  · cases h
    exact .inl rfl

/-- A state that holds nothing on its ports but what `s` holds there is as bounded as `s`. -/
theorem PortsBelow.of_subset (hs : PortsBelow n s) (hq : t.queue ⊆ s.queue)
    (ha : t.arriving ⊆ s.arriving) (hi : t.inbox ⊆ s.inbox) : PortsBelow n t := by
  obtain ⟨hsq, hsa, hsi⟩ := hs
  exact ⟨fun e he => hsq e (hq he), fun e he => hsa e (ha he), fun p w hw => hsi p w (hi hw)⟩

/-- `PortsBelow` reads only the port queues, the arriving words and the inputs to come. -/
theorem PortsBelow.congr (hs : PortsBelow n s) (hq : t.queue = s.queue)
    (ha : t.arriving = s.arriving) (hi : t.inbox = s.inbox) : PortsBelow n t :=
  hs.of_subset (by simp [hq]) (by simp [ha]) (by simp [hi])

/-- A word of port `p`, with the command it may complete, adds entries of port `p` only (R300). -/
theorem PortsBelow.hostWord {p : Nat} (w : Word) (hs : PortsBelow n s) (hp : p < n) :
    PortsBelow n (s.hostWord p w) := by
  obtain ⟨hq, ha, hi⟩ := hs
  unfold State.hostWord
  split
  next c rest _ =>
    refine ⟨fun e he => ?_, fun e he => ?_, hi⟩
    · obtain he | he := List.mem_append.mp he
      · exact hq e he
      · obtain rfl := List.mem_singleton.mp he
        exact hp
    · obtain he | he := List.mem_append.mp he
      · exact ha e (List.mem_filter.mp he).1
      · obtain ⟨v, _, rfl⟩ := List.mem_map.mp he
        exact hp
  next =>
    refine ⟨hq, fun e he => ?_, hi⟩
    obtain he | he := List.mem_append.mp he
    · exact ha e he
    · obtain rfl := List.mem_singleton.mp he
      exact hp

/-- The reset input discards what the ports hold; what is still to come stays (R901). -/
theorem PortsBelow.toReset (b : Bool) (hs : PortsBelow n s) : PortsBelow n (s.toReset b) :=
  hs.of_subset (List.nil_subset _) (List.nil_subset _) (List.Subset.refl _)

/-- Every input but a host word leaves the port queues and the arriving words alone or, as the reset
input does, empties them. -/
theorem PortsBelow.deliver {e : Input} (hs : PortsBelow n s) (he : ∀ p w, e = .hostWord p w → p < n) :
    PortsBelow n (s.deliver e) := by
  cases e with
  | reset b =>
    cases b with
    | true => exact hs.toReset true
    | false =>
      simp only [State.deliver]
      split
      · exact hs.toReset false
      · exact hs
  | hostWord p w =>
    simp only [State.deliver]
    split
    · exact hs
    · exact hs.hostWord w (he p w rfl)
  | serByte x =>
    simp only [State.deliver]
    split <;> exact hs
  | datagram d =>
    simp only [State.deliver, State.dgArrive]
    split
    · exact hs
    · split <;> exact hs
  | radioStatus d =>
    simp only [State.deliver, State.rsArrive]
    split
    · exact hs
    · split <;> exact hs

/-- The input that lands is one the state's coming inputs already named. -/
theorem PortsBelow.takeInput (hs : PortsBelow n s) : PortsBelow n s.takeInput := by
  unfold State.takeInput
  split
  next => exact hs
  next e es hbox =>
    have hrest : PortsBelow n { s with inbox := es } :=
      hs.of_subset (List.Subset.refl _) (List.Subset.refl _) (hbox ▸ List.subset_cons_self e es)
    obtain ⟨_, _, hi⟩ := hs
    exact hrest.deliver fun p w hw => hi p w (by rw [hbox, hw]; exact List.mem_cons_self)

/-- The command of a granted source is taken off its queue and runs without touching the ports. -/
theorem PortsBelow.of_grant {src : Source} (hs : PortsBelow n s) (h : move (.grant src) s = .next t) :
    PortsBelow n t := by
  simp only [move] at h
  split at h
  next c u hc =>
    have hu : PortsBelow n u := by
      obtain ⟨_, _, _, _, hframe⟩ := takeCommand_frame hc
      exact hs.of_subset (takeCommand_queue_subset hc) (by simp [hframe]) (by simp [hframe])
    have hut := runCommand_samePorts h
    exact hu.congr hut.queue hut.arriving hut.inbox
  next =>
    cases h
    exact hs

/-- Whichever agent moves, no port is added. -/
theorem PortsBelow.of_move {a : Agent} (hs : PortsBelow n s) (h : move a s = .next t) :
    PortsBelow n t := by
  cases a with
  | input =>
    cases h
    exact hs.takeInput
  | clock =>
    cases h
    obtain ⟨_, _, _, hframe⟩ := timerCycle_frame s Config.fRef
    rw [hframe]
    exact hs
  | grant src => exact hs.of_grant h

/-- Settles O19: a step is idle or the move of one agent, and each agent keeps the bound. -/
theorem stepKeepsPortsBelow : Obligations.StepKeepsPortsBelow := by
  unfold Obligations.StepKeepsPortsBelow
  intro n s t hs h
  obtain rfl | ⟨a, hmove⟩ := step_eq_next h
  · exact hs
  · have hchosen : PortsBelow n s.chosen := hs
    exact hchosen.of_move hmove

end Sys2Proof.Machine
end

section
/-! PROOFS. Which command writes which element (R112, R115 to R118, R120, R127, R601, R720). What a
command may change is said once, in `Writes`; every frame of a command is read off it. -/

namespace Sys2Proof.Machine

variable {s t : State} {o : Opcode} {i : Instr}

/-- What a command of opcode `o` may make of the state `s`. -/
inductive Writes (s : State) : Opcode → State → Prop
  /-- Any command may do no more than count and respond, as a failing one does (R800). -/
  | report (o : Opcode) (counters) (responses) :
      Writes s o { s with counters := counters, responses := responses }
  /-- CT_SET and DGRAM_RX write the ChannelTable (R510, R701). -/
  | table {o : Opcode} (ho : o = .ctSet ∨ o = .dgramRx) (ct) (counters) (responses) :
      Writes s o { s with ct := ct, counters := counters, responses := responses }
  /-- FS_PUSH writes FrameSync, and the ChannelTable when FS_STORE = 1 (R462). -/
  | push (ct) (fsOut) (counters) (fsBuf) (fsCnt) (judged) (responses)
      (hct : s.fsStore = false → ct = s.ct) :
      Writes s .fsPush { s with
        ct := ct, fsOut := fsOut, counters := counters, fsBuf := fsBuf, fsCnt := fsCnt
        judged := judged, responses := responses }
  /-- LQ_OBSERVE writes the link's state, and leaves the filter seeded (R552, R556). -/
  | observe (fRssi) (fNoise) (failsafe) (counters) (responses) :
      Writes s .lqObserve { s with
        fRssi := fRssi, fNoise := fNoise, lqSeeded := true, failsafe := failsafe
        counters := counters, responses := responses }
  /-- TICK sends, and clears TICK_PEND when it is the timer's own (R601). -/
  | tick (tx) (txDraws) (drawCount) (counters) (responses) :
      Writes s .tick { s with
        tickPend := if s.src = .timer then false else s.tickPend
        tx := tx, txDraws := txDraws, drawCount := drawCount, counters := counters
        responses := responses }
  /-- CFG_RD writes the latches (R127). -/
  | latch (rssi) (noise) (responses) :
      Writes s .cfgRd { s with latRssiHi := rssi, latNoiseHi := noise, responses := responses }
  /-- CFG_WR writes the configuration registers (R720). -/
  | config (ctrl) (gndFreq) (alpha) (snrMin) (snrMax) (rssiMin) (rssiMax) (responses) :
      Writes s .cfgWr { s with
        ctrl := ctrl, gndFreq := gndFreq, alpha := alpha, snrMin := snrMin, snrMax := snrMax
        rssiMin := rssiMin, rssiMax := rssiMax, responses := responses }

/-- An emission with FS_STORE = 0 leaves the ChannelTable alone (R462, R136). -/
theorem fsEmit_ct_of_not_store (f : Frame) (ch : Channels) (h : s.fsStore = false) :
    (s.fsEmit f ch).ct = s.ct := by
  simp [fsEmit_eq, h]

@[simp] theorem fsEmit_fsOut (f : Frame) (ch : Channels) :
    (s.fsEmit f ch).fsOut = s.fsOut ++ [⟨f, ch⟩] := by
  rw [fsEmit_eq]

@[simp] theorem fsEmit_judged (f : Frame) (ch : Channels) : (s.fsEmit f ch).judged = s.judged := by
  rw [fsEmit_eq]

/-- With FS_STORE = 0 no judgement writes the ChannelTable. -/
theorem judge_ct_of_not_store (f : Frame) (h : s.fsStore = false) :
    (judge f s).state.ct = s.ct := by
  unfold judge
  split
  · simp [fsEmit_ct_of_not_store _ _ h]
  · split <;> simp

/-- With FS_STORE = 0 no byte writes the ChannelTable. -/
theorem fsPush_ct_of_not_store (x : Byte) (h : s.fsStore = false) :
    (fsPush x s).state.ct = s.ct := by
  unfold fsPush
  split
  · split <;> rfl
  · dsimp only
    split
    · rfl
    · exact judge_ct_of_not_store _ h

/-- FS_PUSH answers in the state its push leaves (R460). -/
theorem exec_fsPush_next {x : Byte} (h : exec (.fsPush x) s = .next t) :
    ∃ rs, t = (fsPush x s).state.respond .ok rs := by
  rw [exec_fsPush] at h
  cases h
  exact ⟨_, rfl⟩

/-- Every command stays within what its opcode may write. -/
theorem exec_writes (h : exec i s = .next t) : Writes s i.opcode t := by
  cases i with
  | ctSet b ch v =>
    cases h
    exact .table (.inl rfl) _ _ _
  | fsPush x =>
    obtain ⟨rs, rfl⟩ := exec_fsPush_next h
    obtain ⟨ct, fo, cs, buf, cnt, n, hpush⟩ := fsPush_frame s x
    have hct := fsPush_ct_of_not_store (s := s) x
    rw [hpush] at hct ⊢
    exact .push _ _ _ _ _ _ _ hct
  | lqObserve r n =>
    cases h
    exact .observe _ _ _ _ _
  | tick =>
    cases h
    obtain ⟨tx, dr, n, cs, hbody⟩ := tickBody_frame s.clearTick
    rw [hbody, clearTick_eq]
    exact .tick _ _ _ _ _
  | cfgRd n =>
    rw [exec_cfgRd] at h
    unfold execCfgRd at h
    split at h <;> cases h
    · rename_i r _
      obtain ⟨a, b, hlatch⟩ := latch_frame s r
      rw [hlatch]
      exact .latch _ _ _
    · exact .report _ _ _
  | cfgWr n v =>
    rw [exec_cfgWr] at h
    unfold execCfgWr at h
    split at h <;> cases h
    · rename_i u hu
      obtain ⟨r, _, hr⟩ := Option.bind_eq_some_iff.mp hu
      obtain ⟨_, _, _, _, _, _, _, rfl⟩ := writeReg_frame s hr
      exact .config _ _ _ _ _ _ _ _
    · exact .report _ _ _
  | dgramRx w =>
    rw [exec_dgramRx] at h
    unfold execDgramRx at h
    dsimp only at h
    split at h
    · cases h
      exact .report _ _ _
    · split at h <;> cases h
      · exact .table (.inr rfl) _ _ _
      · exact .report _ _ _
  | sbusDecode w =>
    rw [exec_sbusDecode] at h
    unfold execSbusDecode at h
    split at h <;> cases h <;> exact .report _ _ _
  | nop | ctGet | ctSnapshot | sbusEncode | ppmToSbus | sbusToPpm =>
    cases h
    exact .report _ _ _

namespace Writes

/-- LinkState is LQ_OBSERVE's (R115 to R118). -/
theorem link (h : Writes s o t) (ho : o ≠ .lqObserve) :
    t.fRssi = s.fRssi ∧ t.fNoise = s.fNoise ∧ t.lqSeeded = s.lqSeeded ∧ t.failsafe = s.failsafe := by
  cases h with
  | observe => exact absurd rfl ho
  | _ => exact ⟨rfl, rfl, rfl, rfl⟩

/-- The ChannelTable is CT_SET's, DGRAM_RX's, and with FS_STORE = 1 FS_PUSH's (R112). -/
theorem channelTable (h : Writes s o t) (hset : o ≠ .ctSet) (hdg : o ≠ .dgramRx)
    (hpush : o = .fsPush → s.fsStore = false) : t.ct = s.ct := by
  cases h with
  | table ho => exact absurd ho (by simp [hset, hdg])
  | push _ _ _ _ _ _ _ hct => exact hct (hpush rfl)
  | _ => rfl

/-- FrameSync is FS_PUSH's (R120). -/
theorem frameSync (h : Writes s o t) (ho : o ≠ .fsPush) :
    t.fsBuf = s.fsBuf ∧ t.fsCnt = s.fsCnt ∧ t.fsOut = s.fsOut := by
  cases h with
  | push => exact absurd rfl ho
  | _ => exact ⟨rfl, rfl, rfl⟩

/-- The configuration registers are CFG_WR's (R720). -/
theorem configuration (h : Writes s o t) (ho : o ≠ .cfgWr) :
    t.ctrl = s.ctrl ∧ t.gndFreq = s.gndFreq ∧ t.alpha = s.alpha ∧ t.snrMin = s.snrMin ∧
      t.snrMax = s.snrMax ∧ t.rssiMin = s.rssiMin ∧ t.rssiMax = s.rssiMax := by
  cases h with
  | config => exact absurd rfl ho
  | _ => exact ⟨rfl, rfl, rfl, rfl, rfl, rfl, rfl⟩

/-- The latches are CFG_RD's (R127). -/
theorem latches (h : Writes s o t) (ho : o ≠ .cfgRd) :
    t.latRssiHi = s.latRssiHi ∧ t.latNoiseHi = s.latNoiseHi := by
  cases h with
  | latch => exact absurd rfl ho
  | _ => exact ⟨rfl, rfl⟩

/-- TX and TICK_PEND are TICK's (R600, R601). -/
theorem transmit (h : Writes s o t) (ho : o ≠ .tick) : t.tx = s.tx ∧ t.tickPend = s.tickPend := by
  cases h with
  | tick => exact absurd rfl ho
  | _ => exact ⟨rfl, rfl⟩

/-- A command leaves TICK_PEND as it is, but for the timer's own TICK (R601, R602). -/
theorem tickPend_eq_of_not_timer (h : Writes s o t) (hsrc : s.src ≠ .timer) :
    t.tickPend = s.tickPend := by
  cases h with
  | tick => exact if_neg hsrc
  | _ => rfl

/-- No command sets TICK_PEND (R602). -/
theorem tickPend_of_tickPend_after (h : Writes s o t) (ht : t.tickPend = true) : s.tickPend = true := by
  cases h with
  | tick =>
    dsimp only at ht
    split at ht
    · cases ht
    · exact ht
  | _ => exact ht

end Writes

/-- Settles O22: what each element's group of `Writes` keeps. -/
theorem eachElementHasItsWriters : Obligations.EachElementHasItsWriters := by
  unfold Obligations.EachElementHasItsWriters
  intro i s t h
  have hw := exec_writes h
  exact ⟨hw.link, hw.channelTable, hw.frameSync, hw.configuration, hw.latches, hw.transmit⟩

end Sys2Proof.Machine
end

section
/-! PROOFS. What one step can do (R221, R341, R903), said once, and the shared argument of the
invariants that read neither the ports nor the timer nor the counters. -/

namespace Sys2Proof.Machine

variable {s t : State}

/-- Only a ready agent is picked (R221). -/
theorem pick_mem_ready {a : Agent} (h : s.pick = some a) : a ∈ s.ready := by
  unfold State.pick at h
  split at h
  · exact freePick_mem h
  · split at h
    next hready =>
      cases h
      exact hready
    next => exact freePick_mem h

/-- A ready source has a command to take (R221). -/
theorem takeCommand_isSome {src : Source} (h : src ∈ s.readySources) :
    ∃ c u, s.takeCommand src = some (c, u) := by
  rw [mem_readySources] at h
  cases src with
  | host | serRx | dgRx | rsRx =>
    obtain ⟨_, _, hq⟩ := List.exists_cons_of_ne_nil h
    exact ⟨_, _, by simp only [State.takeCommand, hq]; rfl⟩
  | timer => exact ⟨_, _, if_pos h⟩

theorem takeCommand_inReset {src : Source} {c : Command} (h : s.takeCommand src = some (c, t)) :
    t.inReset = s.inReset := by
  obtain ⟨_, _, _, _, rfl⟩ := takeCommand_frame h
  rfl

theorem takeCommand_tickPend {src : Source} {c : Command} (h : s.takeCommand src = some (c, t)) :
    t.tickPend = s.tickPend := by
  obtain ⟨_, _, _, _, rfl⟩ := takeCommand_frame h
  rfl

theorem takeCommand_src {src : Source} {c : Command} (h : s.takeCommand src = some (c, t)) :
    t.src = src := by
  obtain ⟨_, _, _, _, rfl⟩ := takeCommand_frame h
  rfl

/-- What one step can do from `s`: wait, take an input, make a clock cycle, or run the command of a
granted source, which is legal or not. -/
inductive Moves (s : State) : State → Prop
  | idle (hpick : s.pick = none) : Moves s s
  | input {e : Input} {es : List Input} (hpick : s.pick = some .input) (hbox : s.inbox = e :: es) :
      Moves s (({ s.chosen with inbox := es } : State).deliver e)
  | clock (hpick : s.pick = some .clock) : Moves s (s.chosen.timerCycle Config.fRef)
  | illegal {src : Source} {c : Command} {u : State} (hpick : s.pick = some (.grant src))
      (htake : s.chosen.takeCommand src = some (c, u)) : Moves s u.illegalCommand
  | run {src : Source} {c : Command} {u t : State} {i : Instr} (hpick : s.pick = some (.grant src))
      (htake : s.chosen.takeCommand src = some (c, u)) (hdecode : decode c = .ok i)
      (hexec : exec i u = .next t) : Moves s t

/-- The inversion of `step`. -/
theorem step_moves (h : step s = .next t) : Moves s t := by
  unfold step at h
  split at h
  next a hpick =>
    have hready := pick_mem_ready hpick
    cases a with
    | input =>
      cases h
      obtain ⟨e, es, hbox⟩ := List.exists_cons_of_ne_nil ((input_mem_ready s).mp hready)
      have : s.chosen.takeInput = ({ s.chosen with inbox := es } : State).deliver e := by
        simp only [State.takeInput, State.chosen_inbox, hbox]
      rw [this]
      exact .input hpick hbox
    | clock =>
      cases h
      exact .clock hpick
    | grant src =>
      obtain ⟨c, u, htake⟩ := takeCommand_isSome (s := s.chosen) ((grant_mem_ready s src).mp hready).2
      simp only [move, htake, runCommand] at h
      split at h
      next i hdecode => exact .run hpick htake hdecode h
      next =>
        cases h
        exact .illegal hpick htake
  next hpick =>
    cases h
    exact .idle hpick

/-- An input but the reset input changes the port queues and the counters of dropped datagrams only
(R201). -/
theorem deliver_frame (e : Input) (he : ∀ b, e ≠ .reset b) :
    ∃ q a x d r cs, s.deliver e = { s with
      queue := q, arriving := a, serRx := x, dgRx := d, rsRx := r, counters := cs } := by
  cases e with
  | reset b => exact absurd rfl (he b)
  | serByte x =>
    simp only [State.deliver]
    split <;> exact ⟨_, _, _, _, _, _, rfl⟩
  | hostWord | datagram | radioStatus =>
    simp only [State.deliver, State.hostWord, State.dgArrive, State.rsArrive]
    split
    · exact ⟨_, _, _, _, _, _, rfl⟩
    · split <;> exact ⟨_, _, _, _, _, _, rfl⟩

/-- The reset input brings the reset state, or does nothing (R901). -/
theorem deliver_reset (b : Bool) : s.deliver (.reset b) = s.toReset b ∨ s.deliver (.reset b) = s := by
  cases b with
  | true => exact .inl rfl
  | false =>
    simp only [State.deliver]
    split
    · exact .inl rfl
    · exact .inr rfl

/-- The elements that only commands and the reset input write agree in `s` and `t`. -/
structure SameElements (s t : State) : Prop where
  ct         : t.ct = s.ct
  fRssi      : t.fRssi = s.fRssi
  fNoise     : t.fNoise = s.fNoise
  lqSeeded   : t.lqSeeded = s.lqSeeded
  failsafe   : t.failsafe = s.failsafe
  fsBuf      : t.fsBuf = s.fsBuf
  fsCnt      : t.fsCnt = s.fsCnt
  latRssiHi  : t.latRssiHi = s.latRssiHi
  latNoiseHi : t.latNoiseHi = s.latNoiseHi
  ctrl       : t.ctrl = s.ctrl
  gndFreq    : t.gndFreq = s.gndFreq
  alpha      : t.alpha = s.alpha
  snrMin     : t.snrMin = s.snrMin
  snrMax     : t.snrMax = s.snrMax
  rssiMin    : t.rssiMin = s.rssiMin
  rssiMax    : t.rssiMax = s.rssiMax

theorem deliver_sameElements (e : Input) (he : ∀ b, e ≠ .reset b) (es : List Input) :
    SameElements s (({ s.chosen with inbox := es } : State).deliver e) := by
  obtain ⟨_, _, _, _, _, _, hframe⟩ := deliver_frame (s := { s.chosen with inbox := es }) e he
  rw [hframe]
  constructor <;> rfl

theorem timerCycle_sameElements (fRef : Nat) : SameElements s (s.chosen.timerCycle fRef) := by
  obtain ⟨_, _, _, hframe⟩ := timerCycle_frame s.chosen fRef
  rw [hframe]
  constructor <;> rfl

theorem takeCommand_sameElements {src : Source} {c : Command}
    (h : s.chosen.takeCommand src = some (c, t)) : SameElements s t := by
  obtain ⟨_, _, _, _, rfl⟩ := takeCommand_frame h
  constructor <;> rfl

theorem illegalCommand_sameElements : SameElements s s.illegalCommand := by
  constructor <;> rfl

/-- The induction step of an invariant of the elements that only commands and the reset input write:
it holds of every reset state, and every command keeps it. -/
theorem step_keeps {P : State → Prop} (hcongr : ∀ {s t}, SameElements s t → P s → P t)
    (hreset : ∀ s b, P (State.toReset s b)) (hexec : ∀ {i s t}, exec i s = .next t → P s → P t)
    (h : step s = .next t) (hs : P s) : P t := by
  cases step_moves h with
  | idle => exact hs
  | @input e es =>
    by_cases he : ∃ b, e = .reset b
    · obtain ⟨b, rfl⟩ := he
      obtain hb | hb := deliver_reset (s := { s.chosen with inbox := es }) b
      · rw [hb]
        exact hreset _ b
      · rw [hb]
        exact hcongr (by constructor <;> rfl) hs
    · exact hcongr (deliver_sameElements e (not_exists.mp he) es) hs
  | clock => exact hcongr (timerCycle_sameElements _) hs
  | illegal _ htake => exact hcongr illegalCommand_sameElements (hcongr (takeCommand_sameElements htake) hs)
  | run _ htake _ hexec' => exact hexec hexec' (hcongr (takeCommand_sameElements htake) hs)

end Sys2Proof.Machine
end

section
/-! PROOFS. Collecting starts at a start marker (R123), and FrameSync reads the collected bytes only
(R120, R463). -/

namespace Sys2Proof.Machine

variable {s t : State}

@[simp] theorem PushResult.quiet_state : (PushResult.quiet s).state = s := rfl

/-- A judgement is determined by the candidate: it keeps `cnt` bytes of it from byte `k` on, which is
a start marker where any is kept, and emits the records `rs` (R453, R454, R461). -/
theorem judge_eq_of_candidate (f : Frame) :
    ∃ (k : Nat) (cnt : Fin 25) (rs : List FsRecord) (hk : k + cnt.val ≤ 25),
      (∀ hc : 1 ≤ cnt.val, f[k]'(by omega) = startMarker) ∧
      ∀ s, (judge f s).state.fsCnt = cnt ∧ (judge f s).state.fsBuf = keepFrom f k s.judged ∧
        (judge f s).state.fsOut = s.fsOut ++ rs := by
  cases hd : decodeFrame f with
  | some ch =>
    exact ⟨25, 0, [⟨f, ch⟩], le_refl _, fun hc => absurd hc (by decide), fun s => by simp [judge, hd]⟩
  | none =>
    cases hm : laterMarker f with
    | some j =>
      obtain ⟨hmarker, -⟩ := laterMarker_eq_some hm
      exact ⟨j.val + 1, ⟨24 - j.val, by omega⟩, [], by dsimp only; omega, fun _ => hmarker,
        fun s => by simp [judge, hd, hm]⟩
    | none =>
      exact ⟨25, 0, [], le_refl _, fun hc => absurd hc (by decide), fun s => by simp [judge, hd, hm]⟩

/-- What is kept of a candidate begins at a start marker (R461). -/
theorem judge_marker (f : Frame) : CollectingStartsAtMarker (judge f s).state := by
  obtain ⟨k, cnt, rs, hk, hmarker, hjudge⟩ := judge_eq_of_candidate f
  obtain ⟨hcnt, hbuf, -⟩ := hjudge s
  intro hc
  rw [hcnt] at hc
  rw [show (judge f s).state.fsBuf[0] = (keepFrom f k s.judged)[0] by rw [hbuf],
    keepFrom_getElem _ _ _ _ (by omega)]
  simpa using hmarker hc

/-- FS_PUSH keeps the invariant of R123: it begins to collect at a marker only, and while it collects
it writes behind byte 0. -/
theorem fsPush_marker (x : Byte) (hs : CollectingStartsAtMarker s) :
    CollectingStartsAtMarker (fsPush x s).state := by
  by_cases h0 : s.fsCnt.val = 0
  · by_cases hx : x = startMarker
    · subst hx
      rw [fsPush_searching_start s h0]
      intro _
      simp
    · rw [fsPush_searching_skip s h0 hx]
      exact hs
  · by_cases h24 : s.fsCnt.val + 1 < 25
    · rw [fsPush_collecting s h0 h24]
      intro _
      have hmarker := hs (by omega)
      simpa [Vector.getElem_set, h0] using hmarker
    · rw [fsPush_full s (by omega)]
      exact judge_marker _

/-- `CollectingStartsAtMarker` reads FS_CNT and FS_BUF only. -/
theorem CollectingStartsAtMarker.congr (hs : CollectingStartsAtMarker s) (hbuf : t.fsBuf = s.fsBuf)
    (hcnt : t.fsCnt = s.fsCnt) : CollectingStartsAtMarker t := by
  unfold CollectingStartsAtMarker
  rw [hbuf, hcnt]
  exact hs

theorem CollectingStartsAtMarker.of_exec {i : Instr} (h : exec i s = .next t)
    (hs : CollectingStartsAtMarker s) : CollectingStartsAtMarker t := by
  by_cases hi : i.opcode = .fsPush
  · cases i with
    | fsPush x =>
      obtain ⟨rs, rfl⟩ := exec_fsPush_next h
      exact (fsPush_marker x hs).congr rfl rfl
    | _ => cases hi
  · obtain ⟨hbuf, hcnt, -⟩ := (exec_writes h).frameSync hi
    exact hs.congr hbuf hcnt

/-- Settles O16: only FS_PUSH and the reset input write FrameSync, and both keep R123. -/
theorem stepKeepsCollectingMarker : Obligations.StepKeepsCollectingMarker := by
  unfold Obligations.StepKeepsCollectingMarker
  intro s t hs h
  exact step_keeps (fun hsame hs => hs.congr hsame.fsBuf hsame.fsCnt)
    (fun _ _ hc => absurd hc (Nat.not_succ_le_zero 0)) CollectingStartsAtMarker.of_exec h hs

/-- `s` and `t` have collected the same bytes: FS_CNT and FS_BUF[0..FS_CNT-1] agree. -/
def SameCollected (s t : State) : Prop :=
  s.fsCnt = t.fsCnt ∧ ∀ i : Fin 25, i < s.fsCnt → s.fsBuf[i] = t.fsBuf[i]

/-- States that agree on FS_CNT agree on every byte of a buffer that is written at FS_CNT, up to it. -/
theorem SameCollected.set_getElem (h : SameCollected s t) (x : Byte) (i : Fin 25) (hi : i ≤ s.fsCnt) :
    (s.fsBuf.set s.fsCnt x)[i] = (t.fsBuf.set t.fsCnt x)[i] := by
  obtain ⟨hcnt, hbuf⟩ := h
  have hbyte : i ≠ s.fsCnt → s.fsBuf[i] = t.fsBuf[i] := fun hne => hbuf i (lt_of_le_of_ne hi hne)
  by_cases he : s.fsCnt = i
  · simp [← hcnt, he]
  · have hv : s.fsCnt.val ≠ i.val := fun hv => he (Fin.ext hv)
    simpa [← hcnt, Vector.getElem_set, hv] using hbyte (Ne.symm he)

/-- One byte on the same collected bytes leaves the same collected bytes and emits the same. -/
theorem fsPush_sameCollected (x : Byte) (h : SameCollected s t) :
    SameCollected (fsPush x s).state (fsPush x t).state ∧
      ∃ rs, (fsPush x s).state.fsOut = s.fsOut ++ rs ∧ (fsPush x t).state.fsOut = t.fsOut ++ rs := by
  have hset := h.set_getElem x
  obtain ⟨hcnt, hbuf⟩ := h
  by_cases h0 : s.fsCnt.val = 0
  · have h0' : t.fsCnt.val = 0 := hcnt ▸ h0
    by_cases hx : x = startMarker
    · subst hx
      rw [fsPush_searching_start s h0, fsPush_searching_start t h0']
      refine ⟨⟨rfl, fun i hi => ?_⟩, [], by simp, by simp⟩
      have hi0 : i = 0 := by simpa using hi
      simp [hi0]
    · rw [fsPush_searching_skip s h0 hx, fsPush_searching_skip t h0' hx]
      exact ⟨⟨hcnt, hbuf⟩, [], by simp, by simp⟩
  · have h0' : t.fsCnt.val ≠ 0 := hcnt ▸ h0
    by_cases h24 : s.fsCnt.val + 1 < 25
    · have h24' : t.fsCnt.val + 1 < 25 := hcnt ▸ h24
      rw [fsPush_collecting s h0 h24, fsPush_collecting t h0' h24']
      exact ⟨⟨by simp [hcnt], fun i hi => hset i (Nat.le_of_lt_succ hi)⟩, [], by simp, by simp⟩
    · have hs24 : s.fsCnt.val = 24 := by omega
      have hcandidate : s.fsBuf.set s.fsCnt x = t.fsBuf.set t.fsCnt x :=
        Vector.ext fun i hi => hset ⟨i, hi⟩ (Fin.le_def.mpr (by dsimp only; omega))
      rw [fsPush_full s hs24, fsPush_full t (hcnt ▸ hs24), ← hcandidate]
      obtain ⟨k, cnt, rs, hk, -, hjudge⟩ := judge_eq_of_candidate (s.fsBuf.set s.fsCnt x)
      obtain ⟨hcs, hbs, hos⟩ := hjudge s
      obtain ⟨hct, hbt, hot⟩ := hjudge t
      refine ⟨⟨hcs.trans hct.symm, fun i hi => ?_⟩, rs, hos, hot⟩
      have hik : i.val + k < 25 := by
        rw [hcs] at hi
        have := Fin.lt_def.mp hi
        omega
      rw [hbs, hbt]
      exact (keepFrom_getElem _ _ _ _ hik).trans (keepFrom_getElem _ _ _ _ hik).symm

/-- Settles O39: FS_PUSH is `fsPush` and a response, which touches no byte of FrameSync. -/
theorem fsPushReadsOnlyCollectedBytes : Obligations.FsPushReadsOnlyCollectedBytes := by
  unfold Obligations.FsPushReadsOnlyCollectedBytes
  intro x s t s' t' hcnt hbuf hs ht
  obtain ⟨_, rfl⟩ := exec_fsPush_next hs
  obtain ⟨_, rfl⟩ := exec_fsPush_next ht
  obtain ⟨⟨hcnt', hbuf'⟩, hout⟩ := fsPush_sameCollected x ⟨hcnt, hbuf⟩
  exact ⟨hcnt', hbuf', hout⟩

end Sys2Proof.Machine
end

section
/-! PROOFS. The unseeded filter, the reset input's hold, TICK_PEND, and the order of a host port's
commands. -/

namespace Sys2Proof.Machine

variable {s t : State}

/-- `UnseededAtReset` reads LinkState only. -/
theorem UnseededAtReset.congr (hs : UnseededAtReset s)
    (h : t.fRssi = s.fRssi ∧ t.fNoise = s.fNoise ∧ t.lqSeeded = s.lqSeeded ∧ t.failsafe = s.failsafe) :
    UnseededAtReset t := by
  obtain ⟨hrssi, hnoise, hseeded, hfailsafe⟩ := h
  unfold UnseededAtReset
  rw [hrssi, hnoise, hseeded, hfailsafe]
  exact hs

/-- The one command that writes LinkState leaves the filter seeded (R552). -/
theorem UnseededAtReset.of_exec {i : Instr} (h : exec i s = .next t) (hs : UnseededAtReset s) :
    UnseededAtReset t := by
  by_cases hi : i.opcode = .lqObserve
  · cases i with
    | lqObserve r n =>
      cases h
      exact fun hseeded => nomatch hseeded
    | _ => cases hi
  · exact hs.congr ((exec_writes h).link hi)

/-- While the reset input is asserted nothing but an input can move (R901). -/
theorem inReset_of_pick {a : Agent} (h : s.pick = some a) (ha : a ≠ .input) : s.inReset = false := by
  have hready := pick_mem_ready h
  cases a with
  | input => exact absurd rfl ha
  | clock => exact ((clock_mem_ready s).mp hready).1
  | grant src => exact ((grant_mem_ready s src).mp hready).1

/-- A granted command runs with the reset input released (R901). -/
theorem inReset_of_granted {src : Source} {c : Command} (hpick : s.pick = some (.grant src))
    (htake : s.chosen.takeCommand src = some (c, t)) : t.inReset = false := by
  have hs : s.inReset = false := inReset_of_pick hpick (by simp)
  exact (takeCommand_inReset htake).trans hs

/-- While the reset input is asserted every other input is discarded (R901). -/
theorem deliver_discards {e : Input} (h : s.inReset = true) (he : ∀ b, e ≠ .reset b) :
    s.deliver e = s := by
  cases e with
  | reset b => exact absurd rfl (he b)
  | hostWord | serByte | datagram | radioStatus => exact if_pos h

/-- A block whose reset input is released is not held. -/
theorem HeldInReset.of_released (h : s.inReset = false) : HeldInReset s := fun hr => by
  rw [h] at hr
  cases hr

theorem HeldInReset.toReset (b : Bool) : HeldInReset (s.toReset b) := by
  cases b with
  | true => exact fun _ => rfl
  | false => exact .of_released rfl

/-- An input keeps the hold: it is the reset input, or it is discarded, or nothing holds. -/
theorem HeldInReset.deliver (hs : HeldInReset s) (e : Input) : HeldInReset (s.deliver e) := by
  by_cases he : ∃ b, e = .reset b
  · obtain ⟨b, rfl⟩ := he
    obtain hb | hb := deliver_reset (s := s) b
    · rw [hb]
      exact .toReset b
    · rw [hb]
      exact hs
  · cases hr : s.inReset with
    | true =>
      rw [deliver_discards hr (not_exists.mp he)]
      exact hs
    | false => exact .of_released ((deliver_inReset s e (not_exists.mp he)).trans hr)

/-- The pick and the inputs to come are kept over reset, so noting them keeps the hold. -/
theorem HeldInReset.chosen (hs : HeldInReset s) (es : List Input) :
    HeldInReset { s.chosen with inbox := es } := by
  intro hr
  calc ({ s.chosen with inbox := es } : State)
    _ = { (s.toReset true).chosen with inbox := es } := by rw [← hs hr]
    _ = State.toReset { s.chosen with inbox := es } true := rfl

/-- A step keeps the hold: while it lasts only an input can move. -/
theorem HeldInReset.of_step (h : step s = .next t) (hs : HeldInReset s) : HeldInReset t := by
  cases step_moves h with
  | idle => exact hs
  | @input e es => exact (hs.chosen es).deliver e
  | clock hpick =>
    obtain ⟨_, _, _, hframe⟩ := timerCycle_frame s.chosen Config.fRef
    exact .of_released (by simp [hframe, inReset_of_pick hpick])
  | illegal hpick htake =>
    have hu := inReset_of_granted hpick htake
    exact .of_released hu
  | run hpick htake _ hexec =>
    exact .of_released ((exec_samePorts _ hexec).inReset.trans (inReset_of_granted hpick htake))

/-- Settles O20: the two invariants, each kept by every step. -/
theorem stepKeepsUnsetAndHeld : Obligations.StepKeepsUnsetAndHeld := by
  unfold Obligations.StepKeepsUnsetAndHeld
  intro s t h
  have hcongr : ∀ {s t}, SameElements s t → UnseededAtReset s → UnseededAtReset t := fun hsame hs =>
    hs.congr ⟨hsame.fRssi, hsame.fNoise, hsame.lqSeeded, hsame.failsafe⟩
  exact ⟨step_keeps hcongr (fun _ _ _ => ⟨rfl, rfl, rfl⟩) UnseededAtReset.of_exec h,
    HeldInReset.of_step h⟩

/-- A firing leaves TICK_PEND set (R621, R622). -/
theorem timerFire_tickPend : s.timerFire.tickPend = true := by
  unfold State.timerFire
  split
  next h => exact h
  next => rfl

/-- The reference clock never clears TICK_PEND (R620). -/
theorem timerCycle_tickPend (fRef : Nat) (h : s.tickPend = true) :
    (s.timerCycle fRef).tickPend = true := by
  unfold State.timerCycle
  split
  · split
    · exact timerFire_tickPend
    · exact h
  · exact h

/-- An input leaves TICK_PEND as it is, or it is the reset input and clears it (R901). -/
theorem deliver_tickPend (e : Input) :
    (s.deliver e).tickPend = s.tickPend ∨ (s.deliver e).tickPend = false ∧ ∃ b, e = .reset b := by
  by_cases he : ∃ b, e = .reset b
  · obtain ⟨b, rfl⟩ := he
    obtain hb | hb := deliver_reset (s := s) b
    · exact .inr ⟨by rw [hb]; rfl, b, rfl⟩
    · exact .inl (by rw [hb])
  · obtain ⟨_, _, _, _, _, _, hframe⟩ := deliver_frame (s := s) e (not_exists.mp he)
    exact .inl (by rw [hframe])

/-- No step but one of the reference clock sets TICK_PEND (R125). -/
theorem tickPend_of_step (h : step s = .next t) (hclock : s.pick ≠ some .clock)
    (ht : t.tickPend = true) : s.tickPend = true := by
  cases step_moves h with
  | idle => exact ht
  | @input e es =>
    obtain hkeep | ⟨hclear, -⟩ := deliver_tickPend (s := { s.chosen with inbox := es }) e
    · exact hkeep.symm.trans ht
    · rw [hclear] at ht
      cases ht
  | clock hpick => exact absurd hpick hclock
  | illegal _ htake => exact (takeCommand_tickPend htake).symm.trans ht
  | run _ htake _ hexec =>
    exact (takeCommand_tickPend htake).symm.trans ((exec_writes hexec).tickPend_of_tickPend_after ht)

/-- A step that clears TICK_PEND grants the timer or takes the reset input (R601, R602, R901). -/
theorem pick_of_tickPend_cleared (h : step s = .next t) (hs : s.tickPend = true)
    (ht : t.tickPend = false) :
    s.pick = some (.grant .timer) ∨ (s.pick = some .input ∧ ∃ b es, s.inbox = .reset b :: es) := by
  have hchange : t.tickPend ≠ s.tickPend := by simp [hs, ht]
  cases step_moves h with
  | idle => exact absurd rfl hchange
  | @input e es hpick hbox =>
    obtain hkeep | ⟨-, b, rfl⟩ := deliver_tickPend (s := { s.chosen with inbox := es }) e
    · exact absurd hkeep hchange
    · exact .inr ⟨hpick, b, es, hbox⟩
  | clock => exact absurd ((timerCycle_tickPend (s := s.chosen) _ hs).trans hs.symm) hchange
  | illegal _ htake => exact absurd (takeCommand_tickPend htake) hchange
  | @run src _ _ _ _ hpick htake _ hexec =>
    by_cases hsrc : src = .timer
    · exact .inl (hsrc ▸ hpick)
    · have hkeep := (exec_writes hexec).tickPend_eq_of_not_timer (takeCommand_src htake ▸ hsrc)
      exact absurd (hkeep.trans (takeCommand_tickPend htake)) hchange

/-- Settles O24: the two directions of a change of TICK_PEND. -/
theorem tickPendSetByClockClearedByTimer : Obligations.TickPendSetByClockClearedByTimer := by
  unfold Obligations.TickPendSetByClockClearedByTimer
  intro s t h
  exact ⟨tickPend_of_step h, pick_of_tickPend_cleared h⟩

/-- The grant of a host port takes the oldest command of it off the queue (R221). -/
theorem takeCommand_host {p : Nat} {c : Command} {cs : List Command} (h : s.portQueue p = c :: cs) :
    s.takeCommand (.host p)
      = some (c, { s with queue := s.queue.eraseP fun e => e.1 == p, src := .host p }) := by
  simp only [State.takeCommand, h]

/-- Taking the first entry that satisfies `p` takes the head of those that do. -/
theorem filter_eraseP_self {α : Type} (p : α → Bool) (l : List α) :
    (l.eraseP p).filter p = (l.filter p).tail := by
  induction l with
  | nil => rfl
  | cons a l ih => by_cases h : p a <;> simp [h, ih]

/-- Taking an entry that satisfies `p` leaves those that satisfy `q` alone where none does both. -/
theorem filter_eraseP_of_disjoint {α : Type} {p q : α → Bool} (hpq : ∀ a, p a = true → q a = false)
    (l : List α) : (l.eraseP p).filter q = l.filter q := by
  induction l with
  | nil => rfl
  | cons a l ih =>
    by_cases h : p a
    · simp [h, hpq a h]
    · simp [h, List.filter_cons, ih]

/-- Settles O8: `eraseP` takes the head of one port's entries and leaves the others'. -/
theorem portQueueIsFifo : Obligations.PortQueueIsFifo := by
  unfold Obligations.PortQueueIsFifo
  intro s p c cs h
  refine ⟨_, takeCommand_host h, ?_, fun q hq => ?_, rfl⟩
  · calc ((s.queue.eraseP fun e => e.1 == p).filter fun e => e.1 == p).map Prod.snd
      _ = (s.portQueue p).tail := by rw [filter_eraseP_self, List.map_tail]; rfl
      _ = cs := by rw [h]; rfl
  · have hpq : ∀ e : Nat × Command, (e.1 == p) = true → (e.1 == q) = false := fun e he => by
      simpa [beq_iff_eq.mp he] using Ne.symm hq
    exact congrArg (List.map Prod.snd) (filter_eraseP_of_disjoint hpq s.queue)

end Sys2Proof.Machine
end

section
/-! PROOFS. The arbiter (R221): it picks only what is ready, and something whenever anything is. -/

namespace Sys2Proof.Machine

variable {s : State}

/-- Something is picked whenever anything is ready (R221). -/
theorem pick_isSome (h : s.ready ≠ []) : ∃ a, s.pick = some a := by
  unfold State.pick
  split
  · exact freePick_isSome h
  · split
    · exact ⟨_, rfl⟩
    · exact freePick_isSome h

/-- A settled pick that is ready is made; the settled picks do not bear on what is ready (R221). -/
theorem pick_of_settled {a : Agent} (h : a ∈ s.ready) (as : List Agent) :
    ({ s with sched := a :: as } : State).pick = some a := if_pos h

/-- Settles O12: the three clauses, one lemma each. -/
theorem arbiterPicksReady : Obligations.ArbiterPicksReady := by
  unfold Obligations.ArbiterPicksReady
  exact ⟨fun _ _ => pick_mem_ready, fun _ => pick_isSome, fun _ _ h => pick_of_settled h []⟩

end Sys2Proof.Machine
end

section
/-! PROOFS. Liveness under weak fairness (R224). One argument serves every source: what makes a source
ready stays until the source is granted, so the source stays ready, and so it is granted. -/

namespace Sys2Proof.Machine

variable {s t : State}

/-- The rule of weak fairness: a property that makes `src` ready, and that every step keeps but a grant
of `src` or one into or out of reset, still holds when `src` is granted. -/
theorem granted_of_kept {P : State → Prop} {src : Source} {r : Nat → State} {n : Nat}
    (hready : ∀ {s}, P s → src ∈ s.readySources)
    (hkeep : ∀ {s t}, step s = .next t → s.inReset = false → t.inReset = false →
      s.pick ≠ some (.grant src) → P s → P t)
    (hrun : IsRun r) (hfair : WeaklyFair r) (hrel : StaysReleased r n) (hn : P (r n)) :
    ∃ m, n ≤ m ∧ (r m).pick = some (.grant src) ∧ P (r m) := by
  by_contra! hnever
  have hP : ∀ m, n ≤ m → P (r m) := fun m hm => by
    induction m, hm using Nat.le_induction with
    | base => exact hn
    | succ m hm ih =>
      have hpick : (r m).pick ≠ some (.grant src) := fun hpick => hnever m hm hpick ih
      exact hkeep (hrun m) (hrel m hm) (hrel (m + 1) (by omega)) hpick ih
  obtain ⟨m, hm, hpick⟩ := hfair src n fun m hm =>
    (grant_mem_ready _ _).mpr ⟨hrel m hm, hready (hP m hm)⟩
  exact hnever m hm hpick (hP m hm)

/-- The step that grants a source runs the source's command (R221, R341). -/
theorem step_of_granted {src : Source} {c : Command} (hpick : s.pick = some (.grant src))
    (htake : s.chosen.takeCommand src = some (c, t)) : step s = runCommand c t := by
  simp only [step, hpick, move, htake]

/-- The reset input changes nothing where reset is neither asserted before it nor after it (R901). -/
theorem deliver_reset_of_released {b : Bool} (hs : s.inReset = false)
    (ht : (s.deliver (.reset b)).inReset = false) : s.deliver (.reset b) = s := by
  cases b with
  | true => cases ht
  | false => exact if_neg (by simp [hs])

/-- A pending tick stays until the timer is granted (R601, R602). -/
theorem tickPend_kept (h : step s = .next t) (hs : s.inReset = false) (ht : t.inReset = false)
    (hpick : s.pick ≠ some (.grant .timer)) (htick : s.tickPend = true) : t.tickPend = true := by
  cases step_moves h with
  | idle => exact htick
  | @input e es =>
    obtain hkeep | ⟨-, b, rfl⟩ := deliver_tickPend (s := { s.chosen with inbox := es }) e
    · exact hkeep.trans htick
    · rw [deliver_reset_of_released (s := { s.chosen with inbox := es }) hs ht]
      exact htick
  | clock => exact timerCycle_tickPend (s := s.chosen) _ htick
  | illegal _ htake => exact (takeCommand_tickPend htake).trans htick
  | @run src _ _ _ _ hgrant htake _ hexec =>
    have hsrc : src ≠ .timer := fun hsrc => hpick (hsrc ▸ hgrant)
    have hkeep := (exec_writes hexec).tickPend_eq_of_not_timer (takeCommand_src htake ▸ hsrc)
    exact (hkeep.trans (takeCommand_tickPend htake)).trans htick

/-- The timer's command is TICK (R623). -/
theorem runCommand_timerCommand : runCommand timerCommand s = exec .tick s := rfl

/-- Settles O57: TICK_PEND stays set until the timer is granted, and the grant runs TICK. -/
theorem pendingTickRuns : Obligations.PendingTickRuns := by
  unfold Obligations.PendingTickRuns
  intro r n hrun hfair hrel htick
  obtain ⟨m, hm, hpick, hpend⟩ := granted_of_kept (P := fun s => s.tickPend = true)
    (mem_readySources _ .timer).mpr tickPend_kept hrun hfair hrel htick
  have htake : (r m).chosen.takeCommand .timer
      = some (timerCommand, { (r m).chosen with src := .timer }) := if_pos hpend
  exact ⟨m, hm, hpick, (step_of_granted hpick htake).trans runCommand_timerCommand⟩

/-- A port's queue is its part of the common queue. -/
theorem portQueue_congr (p : Nat) (h : t.queue = s.queue) : t.portQueue p = s.portQueue p := by
  unfold State.portQueue
  rw [h]

/-- A host word adds at most its own command, at the end of the queue (R300). -/
theorem hostWord_portQueue_prefix (p q : Nat) (w : Word) :
    s.portQueue p <+: (s.hostWord q w).portQueue p := by
  unfold State.hostWord
  split
  · exact ((List.prefix_append _ _).filter _).map _
  · exact List.prefix_rfl

/-- An input only adds to the port queues, but for the reset input (R201, R300). -/
theorem deliver_portQueue_prefix (p : Nat) {e : Input} (hs : s.inReset = false)
    (ht : (s.deliver e).inReset = false) : s.portQueue p <+: (s.deliver e).portQueue p := by
  cases e with
  | reset b => rw [deliver_reset_of_released hs ht]
  | hostWord q w =>
    simp only [State.deliver, hs]
    exact hostWord_portQueue_prefix p q w
  | serByte x =>
    simp only [State.deliver]
    split <;> exact List.prefix_rfl
  | datagram | radioStatus =>
    simp only [State.deliver, State.dgArrive, State.rsArrive]
    split
    · exact List.prefix_rfl
    · split <;> exact List.prefix_rfl

/-- A grant of another source leaves a port's queue alone (R221). -/
theorem takeCommand_portQueue_of_ne {p : Nat} {src : Source} {c : Command} (hsrc : src ≠ .host p)
    (h : s.takeCommand src = some (c, t)) : t.portQueue p = s.portQueue p := by
  cases src with
  | host q =>
    cases hqueue : s.portQueue q with
    | nil => simp [State.takeCommand, hqueue] at h
    | cons d ds =>
      obtain ⟨u, hu, -, hothers, -⟩ := portQueueIsFifo s q d ds hqueue
      cases hu.symm.trans h
      exact hothers p fun hp => hsrc (congrArg Source.host hp.symm)
  | serRx | dgRx | rsRx | timer =>
    simp only [State.takeCommand] at h
    split at h <;> cases h
    rfl

/-- A port's queue loses nothing until the port is granted (R102, R221). -/
theorem portQueue_prefix_of_step {p : Nat} (h : step s = .next t) (hs : s.inReset = false)
    (ht : t.inReset = false) (hpick : s.pick ≠ some (.grant (.host p))) :
    s.portQueue p <+: t.portQueue p := by
  have htaken {src c u} (hgrant : s.pick = some (.grant src))
      (htake : s.chosen.takeCommand src = some (c, u)) : u.portQueue p = s.portQueue p :=
    takeCommand_portQueue_of_ne (s := s.chosen) (fun hsrc => hpick (hsrc ▸ hgrant)) htake
  cases step_moves h with
  | idle => exact List.prefix_rfl
  | @input e es => exact deliver_portQueue_prefix (s := { s.chosen with inbox := es }) p hs ht
  | clock =>
    obtain ⟨_, _, _, hframe⟩ := timerCycle_frame s.chosen Config.fRef
    rw [hframe]
    exact List.prefix_rfl
  | illegal hgrant htake => exact (htaken hgrant htake).symm ▸ List.prefix_rfl
  | run hgrant htake _ hexec =>
    rw [portQueue_congr p (exec_samePorts _ hexec).queue, htaken hgrant htake]

/-- Settles O58: the queue's head stays until the port is granted, and the grant runs it. -/
theorem presentedCommandRuns : Obligations.PresentedCommandRuns := by
  unfold Obligations.PresentedCommandRuns
  intro r n p c cs hrun hfair hrel hqueue
  obtain ⟨m, hm, hpick, cs', hhead⟩ := granted_of_kept (P := fun s => [c] <+: s.portQueue p)
    (src := .host p) (fun hP => (mem_readySources _ (.host p)).mpr (hP.ne_nil (by simp)))
    (fun h hs ht hpick hP => hP.trans (portQueue_prefix_of_step h hs ht hpick))
    hrun hfair hrel ⟨cs, hqueue.symm⟩
  have htake := takeCommand_host (s := (r m).chosen) hhead.symm
  exact ⟨m, _, hm, hpick, htake, step_of_granted hpick htake⟩

end Sys2Proof.Machine
end

section
/-! PROOFS. The fields of a command word (R301), held against the mask and match of the opcode map
(R340): a word matches a row exactly when R350 calls it a legal word of that row's opcode. -/

namespace Sys2Proof.Machine

variable {v w : Word} {o : Opcode}

/-! ### The fields of a word -/

theorem busField_val (w : Word) : (busField w).val = w.bits 8 8 := by
  simp [busField, Word.bits, Nat.shiftRight_eq_div_pow]

theorem chField_val (w : Word) : (chField w).val = w.bits 12 9 := by
  simp [chField, Word.bits, Nat.shiftRight_eq_div_pow]

theorem imm8Field_toNat (w : Word) : (imm8Field w).toNat = w.bits 23 16 := by
  simp [imm8Field, Word.bits, Nat.shiftRight_eq_div_pow]

theorem opcField_toNat (w : Word) : (opcField w).toNat = w.bits 7 0 := by
  simp [opcField, Word.bits]

theorem nopsField_eq_bits (w : Word) : nopsField w = w.bits 28 24 := by
  simp [nopsField, Word.bits, Nat.shiftRight_eq_div_pow]

/-- The seven fields of R301 make up the word. -/
theorem word_eq_iff_bits : v = w ↔
    v.bits 7 0 = w.bits 7 0 ∧ v.bits 8 8 = w.bits 8 8 ∧ v.bits 12 9 = w.bits 12 9 ∧
      v.bits 15 13 = w.bits 15 13 ∧ v.bits 23 16 = w.bits 23 16 ∧ v.bits 28 24 = w.bits 28 24 ∧
      v.bits 31 29 = w.bits 31 29 := by
  constructor
  · rintro rfl
    simp
  · intro h
    have hv := v.isLt
    have hw := w.isLt
    simp only [Word.bits] at h
    apply BitVec.eq_of_toNat_eq
    omega

theorem bits_and (v w : Word) (hi lo : Nat) : (v &&& w).bits hi lo = v.bits hi lo &&& w.bits hi lo := by
  simp only [Word.bits, BitVec.toNat_and, Nat.and_div_two_pow, Nat.and_mod_two_pow]

/-- A field that the mask covers is compared whole. -/
theorem bits_and_of_covered {hi lo : Nat} (hm : v.bits hi lo = 2 ^ (hi + 1 - lo) - 1) :
    (w &&& v).bits hi lo = w.bits hi lo := by
  rw [bits_and, hm, Nat.and_two_pow_sub_one_eq_mod, Word.bits, Nat.mod_mod]

/-- A field that the mask covers exactly where the command does not use it is 0 there (R350 c). -/
theorem bits_and_eq_zero_iff {hi lo : Nat} {used : Bool}
    (hm : v.bits hi lo = if used then 0 else 2 ^ (hi + 1 - lo) - 1) :
    (w &&& v).bits hi lo = 0 ↔ used = true ∨ w.bits hi lo = 0 := by
  cases used with
  | true => simp [bits_and, hm]
  | false => simp [bits_and_of_covered hm]

/-! ### The rows of the opcode map -/

/-- The word meets the row's mask and match (R341). -/
def Selects (o : Opcode) (w : Word) : Prop := w &&& o.row.mask = o.row.match'

/-- What the opcode uses of the word, read off the bits its row's mask leaves open. -/
def maskUse (o : Opcode) : FieldUse where
  usesB    := o.row.mask.bits 8 8 == 0
  usesCh   := o.row.mask.bits 12 9 == 0
  usesImm8 := o.row.mask.bits 23 16 == 0
  nops     := o.row.nops

/-- R302's table and the masks of the opcode map say the same of every opcode. -/
theorem fieldUse_code (o : Opcode) : fieldUse o.row.code.toNat = some (maskUse o) := by
  cases o <;> decide

/-- R302's table has no opcode that the map lacks. -/
theorem exists_code_of_fieldUse {n : Nat} {u : FieldUse} (h : fieldUse n = some u) :
    ∃ o : Opcode, o.row.code.toNat = n := by
  unfold fieldUse at h
  split at h
  · exact ⟨.nop, rfl⟩
  · exact ⟨.ctSet, rfl⟩
  · exact ⟨.ctGet, rfl⟩
  · exact ⟨.ctSnapshot, rfl⟩
  · exact ⟨.sbusEncode, rfl⟩
  · exact ⟨.sbusDecode, rfl⟩
  · exact ⟨.fsPush, rfl⟩
  · exact ⟨.lqObserve, rfl⟩
  · exact ⟨.tick, rfl⟩
  · exact ⟨.ppmToSbus, rfl⟩
  · exact ⟨.sbusToPpm, rfl⟩
  · exact ⟨.cfgRd, rfl⟩
  · exact ⟨.cfgWr, rfl⟩
  · exact ⟨.dgramRx, rfl⟩
  · cases h

/-- A mask covers OPC, NOPS, the reserved fields, and the fields its opcode does not use. -/
theorem mask_bits (o : Opcode) :
    o.row.mask.bits 7 0 = 2 ^ 8 - 1 ∧
      o.row.mask.bits 8 8 = (if (maskUse o).usesB then 0 else 2 ^ 1 - 1) ∧
      o.row.mask.bits 12 9 = (if (maskUse o).usesCh then 0 else 2 ^ 4 - 1) ∧
      o.row.mask.bits 15 13 = 2 ^ 3 - 1 ∧
      o.row.mask.bits 23 16 = (if (maskUse o).usesImm8 then 0 else 2 ^ 8 - 1) ∧
      o.row.mask.bits 28 24 = 2 ^ 5 - 1 ∧ o.row.mask.bits 31 29 = 2 ^ 3 - 1 := by
  cases o <;> decide

/-- A match holds the opcode, the operand count, and 0 in every other field. -/
theorem match_bits (o : Opcode) :
    o.row.match'.bits 7 0 = o.row.code.toNat ∧ o.row.match'.bits 8 8 = 0 ∧
      o.row.match'.bits 12 9 = 0 ∧ o.row.match'.bits 15 13 = 0 ∧ o.row.match'.bits 23 16 = 0 ∧
      o.row.match'.bits 28 24 = o.row.nops ∧ o.row.match'.bits 31 29 = 0 := by
  cases o <;> decide

/-- The mask and match of a row say what R350 (b) to (d) say of the words of its opcode. -/
theorem selects_iff : Selects o w ↔
    w.bits 7 0 = o.row.code.toNat ∧ ((maskUse o).usesB = true ∨ w.bits 8 8 = 0) ∧
      ((maskUse o).usesCh = true ∨ w.bits 12 9 = 0) ∧ w.bits 15 13 = 0 ∧
      ((maskUse o).usesImm8 = true ∨ w.bits 23 16 = 0) ∧ w.bits 28 24 = o.row.nops ∧ w.bits 31 29 = 0 := by
  obtain ⟨hopc, hb, hch, hlow, himm, hnops, hhigh⟩ := mask_bits o
  obtain ⟨hopc', hb', hch', hlow', himm', hnops', hhigh'⟩ := match_bits o
  rw [Selects, word_eq_iff_bits, hopc', hb', hch', hlow', himm', hnops', hhigh',
    bits_and_of_covered hopc, bits_and_eq_zero_iff hb, bits_and_eq_zero_iff hch,
    bits_and_of_covered hlow, bits_and_eq_zero_iff himm, bits_and_of_covered hnops,
    bits_and_of_covered hhigh]

theorem Selects.ofCode (h : Selects o w) : Opcode.ofCode (opcField w) = some o := opcode_ofCode_field h

/-- R350 (a) to (d) on the word's fields: some row of the opcode map has it (R341). -/
theorem legal_iff_selects : w.legal = true ↔ ∃ o, Selects o w := by
  constructor
  · intro h
    cases hu : fieldUse (w.bits 7 0) with
    | none => simp [Word.legal, hu] at h
    | some u =>
      obtain ⟨o, ho⟩ := exists_code_of_fieldUse hu
      obtain rfl : maskUse o = u := Option.some.inj ((fieldUse_code o).symm.trans (ho ▸ hu))
      simp only [Word.legal, hu, Word.reservedZero, Word.unusedZero, Bool.and_eq_true, Bool.or_eq_true,
        beq_iff_eq] at h
      obtain ⟨⟨⟨hlow, hhigh⟩, ⟨hb, hch⟩, himm⟩, hnops⟩ := h
      exact ⟨o, selects_iff.mpr ⟨ho.symm, hb, hch, hlow, himm, hnops, hhigh⟩⟩
  · rintro ⟨o, h⟩
    obtain ⟨hopc, hb, hch, hlow, himm, hnops, hhigh⟩ := selects_iff.mp h
    have hnops : w.bits 28 24 = (maskUse o).nops := hnops
    simp [Word.legal, Word.reservedZero, Word.unusedZero, hopc, fieldUse_code, hb, hch, hlow, himm, hnops,
      hhigh]

/-- Settles O5: the row a word selects is the one of its opcode field, and no two rows share a code. -/
theorem noWordSelectsTwoRows : Obligations.NoWordSelectsTwoRows := by
  unfold Obligations.NoWordSelectsTwoRows
  intro w o o' h h'
  have h : Selects o w := h
  have h' : Selects o' w := h'
  exact Option.some.inj (h.ofCode.symm.trans h'.ofCode)

end Sys2Proof.Machine
end

section
/-! PROOFS. Decoding and encoding are inverse (R340, R341, R361). A command encodes to the one word
that its row selects and that has its fields. -/

namespace Sys2Proof.Machine

variable {w : Word} {o : Opcode} {i : Instr} {ops : List Word} {c : Command}

/-- The fields of a word that a command may use (R302). -/
def wordFields (w : Word) : Nat × Nat × Nat := ((busField w).val, (chField w).val, (imm8Field w).toNat)

/-! ### The word of a command -/

/-- A field in its place is the word's bits there. -/
theorem ofNat_extractLsb'_shiftLeft (w : Word) (lo len : Nat) :
    BitVec.ofNat 32 (w.extractLsb' lo len).toNat <<< lo
      = w &&& (BitVec.setWidth 32 (BitVec.allOnes len) <<< lo) := by
  rw [BitVec.ofNat_toNat]
  ext k hk
  simp only [BitVec.getElem_shiftLeft, BitVec.getElem_and]
  by_cases hlo : k < lo
  · simp [hlo]
  · simp [hlo, Nat.add_sub_cancel' (Nat.le_of_not_lt hlo), Bool.and_comm,
      BitVec.getLsbD_eq_getElem hk]

/-- What a row's mask leaves open is covered by B, CH and IMM8. -/
theorem mask_or_fields (o : Opcode) :
    o.row.mask ||| BitVec.setWidth 32 (BitVec.allOnes 1) <<< 8 ||| BitVec.setWidth 32 (BitVec.allOnes 4) <<< 9
      ||| BitVec.setWidth 32 (BitVec.allOnes 8) <<< 16 = BitVec.allOnes 32 := by
  cases o <;> decide

/-- A word that a command's row selects and that has its fields is the command's word. -/
theorem encodeWord_of_fields (hsel : Selects i.opcode w) (hf : i.fields = wordFields w) : encodeWord i = w := by
  have hb : BitVec.ofNat 32 (busField w).val <<< 8 = _ := ofNat_extractLsb'_shiftLeft w 8 1
  have hch : BitVec.ofNat 32 (chField w).val <<< 9 = _ := ofNat_extractLsb'_shiftLeft w 9 4
  have himm : BitVec.ofNat 32 (imm8Field w).toNat <<< 16 = _ := ofNat_extractLsb'_shiftLeft w 16 8
  rw [encodeWord, hf, ← hsel]
  simp only [wordFields]
  rw [hb, hch, himm, ← BitVec.and_or_distrib_left, ← BitVec.and_or_distrib_left,
    ← BitVec.and_or_distrib_left, mask_or_fields, BitVec.and_allOnes]

/-- The word with the given fields and 0 in the reserved ones. -/
def fieldWord (code nops b ch imm : Nat) : Word :=
  BitVec.ofNat 32 (code + 2 ^ 8 * b + 2 ^ 9 * ch + 2 ^ 16 * imm + 2 ^ 24 * nops)

/-- The fields of a word written as a sum. -/
theorem fieldWord_bits {code nops b ch imm : Nat} (hw : w = fieldWord code nops b ch imm) (hcode : code < 2 ^ 8)
    (hnops : nops < 2 ^ 5) (hb : b < 2) (hch : ch < 16) (himm : imm < 256) :
    w.bits 7 0 = code ∧ w.bits 8 8 = b ∧ w.bits 12 9 = ch ∧ w.bits 15 13 = 0 ∧ w.bits 23 16 = imm ∧
      w.bits 28 24 = nops ∧ w.bits 31 29 = 0 := by
  simp only [hw, fieldWord, Word.bits, BitVec.toNat_ofNat]
  omega

theorem fields_lt (i : Instr) : i.fields.1 < 2 ∧ i.fields.2.1 < 16 ∧ i.fields.2.2 < 256 := by
  cases i with
  | ctSet b ch _ | ctGet b ch => exact ⟨b.isLt, ch.isLt, Nat.succ_pos _⟩
  | ctSnapshot b => exact ⟨b.isLt, Nat.succ_pos _, Nat.succ_pos _⟩
  | fsPush x | cfgRd x | cfgWr x _ => exact ⟨Nat.succ_pos _, Nat.succ_pos _, x.isLt⟩
  | nop | sbusEncode | sbusDecode | lqObserve | tick | ppmToSbus | sbusToPpm | dgramRx =>
    exact ⟨Nat.succ_pos _, Nat.succ_pos _, Nat.succ_pos _⟩

/-- A command has 0 in the fields its opcode does not use (R302). -/
theorem fields_unused (i : Instr) :
    ((maskUse i.opcode).usesB = true ∨ i.fields.1 = 0) ∧ ((maskUse i.opcode).usesCh = true ∨ i.fields.2.1 = 0) ∧
      ((maskUse i.opcode).usesImm8 = true ∨ i.fields.2.2 = 0) := by
  cases i with
  | ctSet | ctGet | ctSnapshot | fsPush | cfgRd | cfgWr =>
    simp [Instr.opcode, Instr.fields, maskUse, Opcode.row, Word.bits]
  | nop | sbusEncode | sbusDecode | lqObserve | tick | ppmToSbus | sbusToPpm | dgramRx =>
    exact ⟨.inr rfl, .inr rfl, .inr rfl⟩

theorem row_nops_lt (o : Opcode) : o.row.nops < 2 ^ 5 := by cases o <;> decide

/-- Every command has a word that its row selects and that has its fields. -/
theorem exists_word_of_command (i : Instr) : ∃ w, Selects i.opcode w ∧ i.fields = wordFields w := by
  obtain ⟨hb, hch, himm⟩ := fields_lt i
  obtain ⟨hb', hch', himm'⟩ := fields_unused i
  obtain ⟨wopc, wb, wch, wlow, wimm, wnops, whigh⟩ :=
    fieldWord_bits rfl i.opcode.row.code.isLt (row_nops_lt i.opcode) hb hch himm
  refine ⟨_, selects_iff.mpr ⟨wopc, wb.symm ▸ hb', wch.symm ▸ hch', wlow, wimm.symm ▸ himm', wnops, whigh⟩, ?_⟩
  simp only [wordFields, busField_val, chField_val, imm8Field_toNat, wb, wch, wimm]

/-- The word of a command is that word. -/
theorem encodeWord_spec (i : Instr) : Selects i.opcode (encodeWord i) ∧ i.fields = wordFields (encodeWord i) := by
  obtain ⟨w, hsel, hf⟩ := exists_word_of_command i
  rw [encodeWord_of_fields hsel hf]
  exact ⟨hsel, hf⟩

/-! ### The decoder -/

/-- As many operand words as the row takes are enough to build its command (R341). -/
theorem build_isOk (h : ops.length = o.row.nops) : ∃ i, build o w ops = .ok i := by
  cases o <;> (obtain ⟨_, hv⟩ := takeOps_of_length h; exact ⟨_, congrArg (Except.map _) hv⟩)

/-- A command built from operand words is built from exactly as many as its row takes. -/
theorem takeOps_map_ok {n : Nat} {f : Vector Word n → Instr} (h : (takeOps n ops).map f = .ok i) :
    ∃ v : Vector Word n, v.toList = ops ∧ f v = i := by
  cases hv : takeOps n ops with
  | ok v =>
    rw [hv] at h
    exact ⟨v, takeOps_ok hv, Except.ok.inj h⟩
  | error => rw [hv] at h; cases h

theorem toList_zero (v : Vector Word 0) : v.toList = [] := List.eq_nil_of_length_eq_zero v.length_toList

theorem toList_one (v : Vector Word 1) : v.toList = [v[0]] := by
  obtain ⟨⟨_ | ⟨a, _ | ⟨b, l⟩⟩⟩, hl⟩ := v <;> simp at hl ⊢

theorem toList_two (v : Vector Word 2) : v.toList = [v[0], v[1]] := by
  obtain ⟨⟨_ | ⟨a, _ | ⟨b, _ | ⟨c, l⟩⟩⟩⟩, hl⟩ := v <;> simp at hl ⊢

theorem eq_ite_of_unused {used : Bool} {n : Nat} (h : used = true ∨ n = 0) : n = if used then n else 0 := by
  obtain rfl | rfl := h
  · rfl
  · exact (ite_self 0).symm

/-- The fields of a word that a row selects are 0 where the row's opcode does not use them (R350 c). -/
theorem Selects.wordFields_eq (h : Selects o w) : wordFields w =
    (if (maskUse o).usesB then (busField w).val else 0, if (maskUse o).usesCh then (chField w).val else 0,
      if (maskUse o).usesImm8 then (imm8Field w).toNat else 0) := by
  obtain ⟨-, hb, hch, -, himm, -, -⟩ := selects_iff.mp h
  rw [← busField_val] at hb
  rw [← chField_val] at hch
  rw [← imm8Field_toNat] at himm
  exact Prod.ext (eq_ite_of_unused hb) (Prod.ext (eq_ite_of_unused hch) (eq_ite_of_unused himm))

/-- What is built from a word of the row has the row's opcode, the operand words and the word's fields. -/
theorem build_ok (hsel : Selects o w) (h : build o w ops = .ok i) :
    i.opcode = o ∧ i.operands = ops ∧ i.fields = wordFields w := by
  rw [hsel.wordFields_eq]
  cases o <;> obtain ⟨v, rfl, rfl⟩ := takeOps_map_ok h
  case nop | ctGet | ctSnapshot | fsPush | tick | cfgRd => exact ⟨rfl, (toList_zero v).symm, rfl⟩
  case ctSet | ppmToSbus | sbusToPpm | cfgWr => exact ⟨rfl, (toList_one v).symm, rfl⟩
  case lqObserve => exact ⟨rfl, (toList_two v).symm, rfl⟩
  case sbusEncode | sbusDecode | dgramRx => exact ⟨rfl, rfl, rfl⟩

/-- A command is built again from its operand words and a word that has its fields. -/
theorem build_of_fields (hf : i.fields = wordFields w) : build i.opcode w i.operands = .ok i := by
  obtain ⟨hb, hch, himm⟩ : i.fields.1 = (busField w).val ∧ i.fields.2.1 = (chField w).val ∧
      i.fields.2.2 = (imm8Field w).toNat := by rw [hf]; exact ⟨rfl, rfl, rfl⟩
  cases i with
  | ctSet b ch v => rw [Fin.ext hb, Fin.ext hch]; rfl
  | ctGet b ch => rw [Fin.ext hb, Fin.ext hch]; rfl
  | ctSnapshot b => rw [Fin.ext hb]; rfl
  | fsPush x => rw [BitVec.eq_of_toNat_eq himm]; rfl
  | cfgRd n => rw [BitVec.eq_of_toNat_eq himm]; rfl
  | cfgWr n v => rw [BitVec.eq_of_toNat_eq himm]; rfl
  | sbusEncode v | sbusDecode v | dgramRx v => exact congrArg (Except.map _) (takeOps_toList v)
  | nop | lqObserve | tick | ppmToSbus | sbusToPpm => rfl

/-- The decoder builds the command of the row that the word selects (R341). -/
theorem decode_of_selects (h : Selects o c.word) : decode c = build o c.word c.ops := by
  simp only [decode, h.ofCode]
  exact if_pos h

/-- What decodes was built from a row that the word selects. -/
theorem build_of_decode (h : decode c = .ok i) : ∃ o, Selects o c.word ∧ build o c.word c.ops = .ok i := by
  unfold decode at h
  split at h
  · cases h
  next o _ =>
    split at h
    next hsel => exact ⟨o, hsel, h⟩
    next => cases h

/-- Decoding is the inverse of encoding (R340, R341). -/
theorem decode_eq_ok_iff : decode c = .ok i ↔ encode i = c := by
  constructor
  · intro h
    obtain ⟨o, hsel, hbuild⟩ := build_of_decode h
    obtain ⟨rfl, hops, hf⟩ := build_ok hsel hbuild
    simp only [encode, encodeWord_of_fields hsel hf, hops]
  · rintro rfl
    obtain ⟨hsel, hf⟩ := encodeWord_spec i
    exact (decode_of_selects (c := encode i) hsel).trans (build_of_fields hf)

/-- A command has as many operand words as its row takes (R340). -/
theorem framing (i : Instr) : Laws.Framing.Statement i :=
  match i with
  | .nop => Laws.Framing.nop
  | .ctSet b ch v => Laws.Framing.ctSet b ch v
  | .ctGet b ch => Laws.Framing.ctGet b ch
  | .ctSnapshot b => Laws.Framing.ctSnapshot b
  | .sbusEncode v => Laws.Framing.sbusEncode v
  | .sbusDecode w => Laws.Framing.sbusDecode w
  | .fsPush x => Laws.Framing.fsPush x
  | .lqObserve r n => Laws.Framing.lqObserve r n
  | .tick => Laws.Framing.tick
  | .ppmToSbus p => Laws.Framing.ppmToSbus p
  | .sbusToPpm v => Laws.Framing.sbusToPpm v
  | .cfgRd n => Laws.Framing.cfgRd n
  | .cfgWr n v => Laws.Framing.cfgWr n v
  | .dgramRx w => Laws.Framing.dgramRx w

theorem complete_iff : c.complete = true ↔ c.ops.length = nopsField c.word := by
  rw [Command.complete, beq_iff_eq, nopsField_eq_bits]

theorem Selects.nopsField_eq (h : Selects o w) : nopsField w = o.row.nops := by
  obtain ⟨-, -, -, -, -, hnops, -⟩ := selects_iff.mp h
  exact (nopsField_eq_bits w).trans hnops

/-- The encoding of a command is legal, and announces the operand words it has (R350, R300). -/
theorem encode_wellFormed (i : Instr) : (encode i).wellFormed = true := by
  obtain ⟨hsel, -⟩ := encodeWord_spec i
  obtain ⟨hops, -⟩ := framing i
  rw [Command.wellFormed, Bool.and_eq_true]
  exact ⟨legal_iff_selects.mpr ⟨_, hsel⟩, complete_iff.mpr (hops.trans hsel.nopsField_eq.symm)⟩

/-- Settles O1: the command's word is selected by its row, and `decode` builds the command from it. -/
theorem encodeThenDecode : Obligations.EncodeThenDecode := by
  unfold Obligations.EncodeThenDecode
  exact fun i => ⟨encode_wellFormed i, decode_eq_ok_iff.mpr rfl⟩

/-- Settles O2, the other direction of the inverse. -/
theorem decodeThenEncode : Obligations.DecodeThenEncode := by
  unfold Obligations.DecodeThenEncode
  exact fun _ _ => decode_eq_ok_iff.mp

/-! ### Legal words -/

/-- A complete transaction decodes exactly when its word is legal (R350). -/
theorem legal_iff_decodes (hc : c.complete = true) : c.word.legal = true ↔ ∃ i, decode c = .ok i := by
  rw [legal_iff_selects]
  constructor
  · rintro ⟨o, hsel⟩
    rw [decode_of_selects hsel]
    exact build_isOk ((complete_iff.mp hc).trans hsel.nopsField_eq)
  · rintro ⟨i, hi⟩
    obtain ⟨o, hsel, -⟩ := build_of_decode hi
    exact ⟨o, hsel⟩

/-- A legal command word runs its command (R341). -/
theorem runCommand_of_ok {s : State} (h : decode c = .ok i) : runCommand c s = exec i s := by
  simp only [runCommand, h]

/-- Settles O3: what decodes runs, and what does not is answered as an illegal command. -/
theorem illegalExactlyByRule350 : Obligations.IllegalExactlyByRule350 := by
  unfold Obligations.IllegalExactlyByRule350
  intro c s hc
  constructor
  · intro hlegal
    obtain ⟨i, hi⟩ := (legal_iff_decodes hc).mp hlegal
    exact ⟨i, hi, runCommand_of_ok hi⟩
  · intro hillegal
    cases hd : decode c with
    | ok i =>
      have hlegal := (legal_iff_decodes hc).mpr ⟨i, hd⟩
      rw [hillegal] at hlegal
      cases hlegal
    | error r =>
      simp only [runCommand, hd]
      rfl

/-- Settles O4: each of the twelve is one run of the decoder. -/
theorem specWordsDecode : Obligations.SpecWordsDecode := by
  unfold Obligations.SpecWordsDecode
  decide

end Sys2Proof.Machine
end

section
/-! PROOFS. Framing of the host ports' words (R300, R355): what a word does to the words before it on
its port, and that no step splits a command or joins two. -/

namespace Sys2Proof.Machine

variable {s t : State} {p q : Nat} {w : Word} {c : Command}

theorem nopsField_eq (w : Word) : nopsField w = w.toNat / 2 ^ 24 % 32 := nopsField_eq_bits w

/-- Settles O6: the length is read from NOPS alone. -/
theorem transactionLength : Obligations.TransactionLength := by
  unfold Obligations.TransactionLength
  intro w ws
  rw [takeTransaction_cons, nopsField_eq]
  exact ⟨fun h => if_pos h, fun h => if_neg (Nat.not_le.mpr h)⟩

/-- What has come of a transaction before its last word is shorter than it. -/
theorem length_le_nopsField_of_snoc {ws vs : List Word} {v : Word} (h : takeTransaction ws = none)
    (hv : ws ++ [w] = v :: vs) : vs.length ≤ nopsField v := by
  cases ws with
  | nil =>
    obtain ⟨-, rfl⟩ := List.cons.inj hv
    exact Nat.zero_le _
  | cons u us =>
    obtain ⟨rfl, hvs⟩ := List.cons.inj hv
    have hlength : us.length + 1 = vs.length := by simpa using congrArg List.length hvs
    rw [takeTransaction_cons] at h
    split at h
    · cases h
    · omega

/-! ### Words and commands of one port -/

theorem portWords_congr (p : Nat) (h : t.arriving = s.arriving) : t.portWords p = s.portWords p := by
  unfold State.portWords
  rw [h]

theorem portWords_snoc_self (s : State) (p : Nat) (w : Word) :
    ({ s with arriving := s.arriving ++ [(p, w)] } : State).portWords p = s.portWords p ++ [w] := by
  simp [State.portWords]

theorem portWords_snoc_of_ne (hq : q ≠ p) (w : Word) :
    ({ s with arriving := s.arriving ++ [(p, w)] } : State).portWords q = s.portWords q := by
  simp [State.portWords, hq.symm]

theorem portWords_others_self (s : State) (p : Nat) :
    ({ s with arriving := s.othersArriving p } : State).portWords p = [] := by
  simp [State.portWords, State.othersArriving]

theorem portWords_others_of_ne (hq : q ≠ p) :
    ({ s with arriving := s.othersArriving p } : State).portWords q = s.portWords q := by
  simp only [State.portWords, State.othersArriving, List.filter_filter]
  congr 2
  funext e
  by_cases he : e.1 = q <;> simp [he, hq]

theorem portQueue_snoc_self (s : State) (p : Nat) (c : Command) :
    ({ s with queue := s.queue ++ [(p, c)] } : State).portQueue p = s.portQueue p ++ [c] := by
  simp [State.portQueue]

theorem portQueue_snoc_of_ne (hq : q ≠ p) (c : Command) :
    ({ s with queue := s.queue ++ [(p, c)] } : State).portQueue q = s.portQueue q := by
  simp [State.portQueue, hq.symm]

/-! ### A word arrives -/

/-- A word that completes no transaction is kept (R300). -/
theorem hostWord_waits (h : takeTransaction (s.portWords p ++ [w]) = none) :
    s.hostWord p w = { s with arriving := s.arriving ++ [(p, w)] } := by
  simp only [State.hostWord, h]

/-- A word that completes a transaction presents it and leaves no word of its port (R300). -/
theorem hostWord_presents (h0 : takeTransaction (s.portWords p) = none) {rest : List Word}
    (h : takeTransaction (s.portWords p ++ [w]) = some (c, rest)) :
    s.hostWord p w = { s with queue := s.queue ++ [(p, c)], arriving := s.othersArriving p } := by
  obtain ⟨rfl, -, -⟩ := takeTransaction_snoc h0 h
  simp only [State.hostWord, h, List.map_nil, List.append_nil]

/-- The other ports do not see a word arrive. -/
theorem hostWord_of_ne (h0 : takeTransaction (s.portWords p) = none) (hq : q ≠ p) :
    (s.hostWord p w).portQueue q = s.portQueue q ∧ (s.hostWord p w).portWords q = s.portWords q := by
  cases h : takeTransaction (s.portWords p ++ [w]) with
  | none =>
    rw [hostWord_waits h]
    exact ⟨rfl, portWords_snoc_of_ne hq w⟩
  | some cr =>
    obtain ⟨c, rest⟩ := cr
    rw [hostWord_presents h0 h]
    exact ⟨portQueue_snoc_of_ne hq c, portWords_others_of_ne hq⟩

/-- A word changes the port queues and the arriving words only. -/
theorem hostWord_frame (s : State) (p : Nat) (w : Word) :
    s.hostWord p w = { s with queue := (s.hostWord p w).queue, arriving := (s.hostWord p w).arriving } := by
  unfold State.hostWord
  split <;> rfl

theorem deliver_hostWord (h : s.inReset = false) : s.deliver (.hostWord p w) = s.hostWord p w :=
  if_neg (by simp [h])

/-- Settles O13: the word is the last one that is announced, or it is kept. -/
theorem hostWordsPresentWholeCommands : Obligations.HostWordsPresentWholeCommands := by
  unfold Obligations.HostWordsPresentWholeCommands
  intro s p w v vs hrel h0 hv
  have hle := length_le_nopsField_of_snoc h0 hv
  rw [deliver_hostWord hrel, ← nopsField_eq]
  refine ⟨fun hlast => ?_, fun hmore => ?_, fun q hq => hostWord_of_ne h0 hq, hostWord_frame s p w⟩
  · have htake : takeTransaction (s.portWords p ++ [w]) = some (⟨v, vs⟩, []) := by
      rw [hv, takeTransaction_cons, if_pos hlast.ge, ← hlast, List.take_length, List.drop_length]
    rw [hostWord_presents h0 htake]
    exact ⟨portQueue_snoc_self s p _, portWords_others_self s p⟩
  · have htake : takeTransaction (s.portWords p ++ [w]) = none := by
      rw [hv, takeTransaction_cons, if_neg (by omega)]
    rw [hostWord_waits htake, ← hv]
    exact ⟨rfl, portWords_snoc_self s p w⟩

/-! ### The invariant -/

/-- A state with no command but those of `s`, and the arriving words of `s`, is as framed as `s`. -/
theorem PortsFramed.of_subset (hs : PortsFramed s) (hq : t.queue ⊆ s.queue) (ha : t.arriving = s.arriving) :
    PortsFramed t := by
  obtain ⟨hwhole, hpart⟩ := hs
  exact ⟨fun e he => hwhole e (hq he), fun p => by rw [portWords_congr p ha]; exact hpart p⟩

theorem PortsFramed.congr (hs : PortsFramed s) (hq : t.queue = s.queue) (ha : t.arriving = s.arriving) :
    PortsFramed t :=
  hs.of_subset (by simp [hq]) ha

/-- A word that arrives completes one command, with all its operand words, or none (R300). -/
theorem PortsFramed.hostWord (hs : PortsFramed s) (p : Nat) (w : Word) : PortsFramed (s.hostWord p w) := by
  obtain ⟨hwhole, hpart⟩ := hs
  have hothers : ∀ q, q ≠ p → takeTransaction ((s.hostWord p w).portWords q) = none := fun q hq => by
    rw [(hostWord_of_ne (hpart p) hq).2]
    exact hpart q
  cases h : takeTransaction (s.portWords p ++ [w]) with
  | none =>
    refine ⟨by rw [hostWord_waits h]; exact hwhole, fun q => ?_⟩
    obtain rfl | hq := eq_or_ne q p
    · rw [hostWord_waits h, portWords_snoc_self]
      exact h
    · exact hothers q hq
  | some cr =>
    obtain ⟨c, rest⟩ := cr
    obtain ⟨-, -, hops⟩ := takeTransaction_snoc (hpart p) h
    refine ⟨fun e he => ?_, fun q => ?_⟩
    · rw [hostWord_presents (hpart p) h] at he
      obtain he | he := List.mem_append.mp he
      · exact hwhole e he
      · obtain rfl := List.mem_singleton.mp he
        exact complete_iff.mpr hops
    · obtain rfl | hq := eq_or_ne q p
      · have hnone := portWords_others_self s q
        rw [hostWord_presents (hpart q) h]
        exact congrArg takeTransaction hnone
      · exact hothers q hq

/-- Every input but a host word leaves the ports' words and commands alone or, as the reset input does,
empties them. -/
theorem PortsFramed.deliver (hs : PortsFramed s) (e : Input) : PortsFramed (s.deliver e) := by
  cases e with
  | reset b =>
    obtain hb | hb := deliver_reset (s := s) b
    · rw [hb]
      exact ⟨fun e he => absurd he List.not_mem_nil, fun _ => rfl⟩
    · rw [hb]
      exact hs
  | hostWord p w =>
    simp only [State.deliver]
    split
    · exact hs
    · exact hs.hostWord p w
  | serByte x =>
    simp only [State.deliver]
    split <;> exact hs
  | datagram | radioStatus =>
    simp only [State.deliver, State.dgArrive, State.rsArrive]
    split
    · exact hs
    · split <;> exact hs

theorem PortsFramed.takeCommand {src : Source} (hs : PortsFramed s) (h : s.takeCommand src = some (c, t)) :
    PortsFramed t := by
  obtain ⟨_, _, _, _, hframe⟩ := takeCommand_frame h
  exact hs.of_subset (takeCommand_queue_subset h) (by simp [hframe])

/-- Settles O18: only an arriving word adds to a port, and it keeps the framing. -/
theorem stepKeepsPortsFramed : Obligations.StepKeepsPortsFramed := by
  unfold Obligations.StepKeepsPortsFramed
  intro s t hs h
  have hchosen : PortsFramed s.chosen := hs
  cases step_moves h with
  | idle => exact hs
  | @input e es =>
    have hbox : PortsFramed { s.chosen with inbox := es } := hs
    exact hbox.deliver e
  | clock =>
    obtain ⟨_, _, _, hframe⟩ := timerCycle_frame s.chosen Config.fRef
    rw [hframe]
    exact hs
  | illegal _ htake => exact (hchosen.takeCommand htake).congr rfl rfl
  | run _ htake _ hexec =>
    have hports := exec_samePorts _ hexec
    exact (hchosen.takeCommand htake).congr hports.queue hports.arriving

end Sys2Proof.Machine
end

section
/-! PROOFS. A step is the move of the agent picked (R221, R341), and how a placed command runs. -/

namespace Sys2Proof.Machine

variable {s : State} {c : Command}

/-- The input agent delivers the oldest input to come (R201). -/
theorem step_of_input {e : Input} {es : List Input} (hpick : s.pick = some .input) (hbox : s.inbox = e :: es) :
    step s = .next (({ s.chosen with inbox := es } : State).deliver e) := by
  simp only [step, hpick, move, State.takeInput, State.chosen_inbox, hbox]

/-- With nothing to pick the block waits (R903, R929). -/
theorem step_of_none (hpick : s.pick = none) : step s = .next s := by
  simp only [step, hpick]

/-- A placed command is picked (log entry 12). -/
theorem place_pick (s : State) (c : Command) : (s.place c).pick = some (.grant (.host 0)) := by
  refine pick_of_settled (s := { s with queue := (0, c) :: s.queue, inReset := false }) ?_ s.sched
  rw [grant_mem_ready, mem_readySources]
  exact ⟨rfl, by simp [State.portQueue]⟩

/-- The grant of a placed command leaves the state it was placed in, released from reset. -/
theorem place_takeCommand (s : State) (c : Command) :
    (s.place c).chosen.takeCommand (.host 0)
      = some (c, { s with inReset := false, choices := s.choices + 1, src := .host 0 }) := by
  have hhead : (s.place c).chosen.portQueue 0 = c :: s.portQueue 0 := by
    simp [State.portQueue, State.place]
  rw [takeCommand_host hhead]
  simp [State.place, State.chosen]

/-- Settles O7: a clause for each way a step can go, and the placed command's. -/
theorem stepRunsDecodedCommand : Obligations.StepRunsDecodedCommand := by
  unfold Obligations.StepRunsDecodedCommand
  refine ⟨fun s t src c hpick htake => ?_, fun s e es => step_of_input, fun s => step_of_none,
    fun s nbits w i hi => ?_⟩
  · have hrun := step_of_granted hpick htake
    exact ⟨hrun, fun i hi => hrun.trans (runCommand_of_ok hi)⟩
  · have hdecode : decode (tableCommand nbits w) = .ok i := by
      unfold decodeTableWord at hi
      split at hi <;> cases hi
      assumption
    exact (step_of_granted (place_pick s _) (place_takeCommand s _)).trans (runCommand_of_ok hdecode)

end Sys2Proof.Machine
end

section
/-! PROOFS. Frames in words (R330): where each byte stands, and that nothing is lost. -/

namespace Sys2Proof.Machine

theorem wordsFromFrame_length (f : List Byte) : (wordsFromFrame f).length = (f.length + 3) / 4 := by
  simp [wordsFromFrame]

/-- Byte m of word j is byte 4j + m of the frame, and 0x00 past its end (R330). -/
theorem wordsFromFrame_byte (f : List Byte) (j m : Nat) (hj : j < (wordsFromFrame f).length) (hm : m < 4) :
    ((wordsFromFrame f)[j]).extractLsb' (8 * m) 8 = (f[4 * j + m]?).getD 0 := by
  have hword : (wordsFromFrame f)[j] = BitVec.ofNat 32 (fromDigits 8 f >>> (32 * j)) := by
    simp [wordsFromFrame]
  rw [hword]
  ext k hk
  have hdiv : (32 * j + (8 * m + k)) / 8 = 4 * j + m := by omega
  have hmod : (32 * j + (8 * m + k)) % 8 = k := by omega
  have hbit : 8 * m + k < 32 := by omega
  rw [BitVec.getElem_extractLsb', BitVec.getLsbD_ofNat, Nat.testBit_shiftRight,
    fromDigits_testBit 8 (by decide), hdiv, hmod]
  simp [hbit, BitVec.getLsbD_eq_getElem hk]

/-- The words hold the whole frame, so its bytes are read back (R330). -/
theorem frameFromWords_wordsFromFrame {L : Nat} (f : Vector Byte L) :
    frameFromWords L (wordsFromFrame f.toList) = f := by
  have hfits : fromDigits 8 f.toList < 2 ^ (32 * ((f.toList.length + 3) / 4)) := calc
    fromDigits 8 f.toList < 2 ^ (8 * f.toList.length) := fromDigits_lt 8 f.toList
    _ ≤ 2 ^ (32 * ((f.toList.length + 3) / 4)) := Nat.pow_le_pow_right (by decide) (by omega)
  rw [frameFromWords, wordsFromFrame, fromDigits_toDigits, Nat.mod_eq_of_lt hfits, toDigits_fromDigits]

/-- Settles O31: the length, the place of each byte, and the inverse. -/
theorem framesInWords : Obligations.FramesInWords := by
  unfold Obligations.FramesInWords
  intro L f
  exact ⟨by rw [wordsFromFrame_length, f.length_toList], wordsFromFrame_byte f.toList,
    frameFromWords_wordsFromFrame f⟩

end Sys2Proof.Machine
end

section
/-! PROOFS. One response a command, on its port (R320, R321). -/

namespace Sys2Proof.Machine

variable {s t u : State} {i : Instr} {n : Nat}

theorem status_code_le (st : Status) : st.code.toNat ≤ 4 := by cases st <;> decide

/-- The status word as a number: the status below bit 8, the count of result words from bit 24 (R320). -/
theorem statusWord_eq (st : Status) (n : Nat) :
    statusWord st n = BitVec.ofNat 32 (st.code.toNat + n * 2 ^ 24) := by
  have hcode : st.code.toNat < 2 ^ 24 := (status_code_le st).trans_lt (by decide)
  have hcount : BitVec.ofNat 32 (n <<< 24) = BitVec.ofNat 32 n <<< 24 := by
    apply BitVec.eq_of_toNat_eq
    simp [Nat.shiftLeft_eq]
  calc statusWord st n
    _ = BitVec.ofNat 32 (n <<< 24 ||| st.code.toNat) := by
      rw [BitVec.ofNat_or, hcount, BitVec.ofNat_toNat, BitVec.setWidth_eq, BitVec.or_comm, statusWord]
    _ = BitVec.ofNat 32 (st.code.toNat + n * 2 ^ 24) := by
      rw [← Nat.shiftLeft_add_eq_or_of_lt hcode, Nat.shiftLeft_eq, Nat.add_comm]

/-- From `s` to `t` one response with `n` result words was given to the source of the command. -/
def AnswersOnce (n : Nat) (s t : State) : Prop :=
  ∃ st rs, rs.length = n ∧ t.responses = s.responses ++ answer s.src st rs

/-- A response given in a state with the source and the responses of `s` is the one response. -/
theorem respond_answersOnce (st : Status) (rs : List Word) (hlen : rs.length = n) (hsrc : u.src = s.src)
    (hresp : u.responses = s.responses) : AnswersOnce n s (u.respond st rs) :=
  ⟨st, rs, hlen, by rw [State.respond_responses, hsrc, hresp]⟩

/-- Every command, whether it fails or not, answers once with the result words of its row (R320, R340). -/
theorem exec_answersOnce (h : exec i s = .next t) : AnswersOnce i.opcode.row.nres s t := by
  cases i with
  | sbusEncode v =>
    cases h
    exact respond_answersOnce _ _ (by rw [wordsFromFrame_length, Vector.length_toList]; rfl) rfl rfl
  | sbusDecode w =>
    rw [exec_sbusDecode] at h
    unfold execSbusDecode at h
    split at h <;> cases h
    · exact respond_answersOnce _ _ (channelWords_length _) rfl rfl
    · exact respond_answersOnce _ _ List.length_replicate rfl rfl
  | ctSnapshot b =>
    cases h
    exact respond_answersOnce _ _ (channelWords_length _) rfl rfl
  | fsPush x =>
    rw [exec_fsPush] at h
    cases h
    obtain ⟨_, _, _, _, _, _, hpush⟩ := fsPush_frame s x
    exact respond_answersOnce _ _ (congrArg (· + 1) (channelWords_length _)) (by rw [hpush]) (by rw [hpush])
  | tick =>
    cases h
    obtain ⟨_, _, _, _, hbody⟩ := tickBody_frame s.clearTick
    rw [hbody, clearTick_eq]
    exact respond_answersOnce _ _ rfl rfl rfl
  | cfgRd n =>
    rw [exec_cfgRd] at h
    unfold execCfgRd at h
    split at h <;> cases h
    · rename_i r _
      obtain ⟨_, _, hlatch⟩ := latch_frame s r
      exact respond_answersOnce _ _ rfl (by rw [hlatch]) (by rw [hlatch])
    · exact respond_answersOnce _ _ rfl rfl rfl
  | cfgWr n v =>
    rw [exec_cfgWr] at h
    unfold execCfgWr at h
    split at h <;> cases h
    · rename_i u hu
      obtain ⟨r, _, hr⟩ := Option.bind_eq_some_iff.mp hu
      obtain ⟨_, _, _, _, _, _, _, rfl⟩ := writeReg_frame s hr
      exact respond_answersOnce _ _ rfl rfl rfl
    · exact respond_answersOnce _ _ rfl rfl rfl
  | dgramRx w =>
    rw [exec_dgramRx] at h
    unfold execDgramRx at h
    dsimp only at h
    split at h
    · cases h
      exact respond_answersOnce _ _ rfl rfl rfl
    · split at h <;> cases h <;> exact respond_answersOnce _ _ rfl rfl rfl
  | nop | ctSet | ctGet | lqObserve | ppmToSbus | sbusToPpm =>
    cases h
    exact respond_answersOnce _ _ rfl rfl rfl

/-- Settles O25: the one response of a command, where its source has a port to take it. -/
theorem oneResponsePerCommand : Obligations.OneResponsePerCommand := by
  unfold Obligations.OneResponsePerCommand
  intro i s t h
  obtain ⟨st, rs, hlen, hresp⟩ := exec_answersOnce h
  refine ⟨fun p hp => ⟨st.code.toNat, rs, status_code_le st, hlen, ?_⟩, fun hinternal => ?_⟩
  · rw [hresp, hp, ← statusWord_eq]
    rfl
  · cases hsrc : s.src with
    | host p => exact absurd hsrc (hinternal p)
    | serRx | dgRx | rsRx | timer =>
      rw [hresp, hsrc]
      exact List.append_nil _

end Sys2Proof.Machine
end

section
/-! PROOFS. SbusCodec (R402 to R407): the bits of a digit sum, where every bit of a frame stands, and
that packing and unpacking are inverse. -/

namespace Sys2Proof.Machine

variable {w n : Nat}

/-! ### The bits of a digit sum -/

theorem toDigits_getLsbD {i j : Nat} (S : Nat) (hi : i < n) (hj : j < w) :
    ((toDigits w n S)[i]).getLsbD j = S.testBit (w * i + j) := by
  rw [toDigits_getElem, BitVec.getLsbD_ofNat, Nat.testBit_shiftRight, decide_eq_true hj, Bool.true_and]

theorem fromDigits_testBit_getElem (v : Vector (BitVec w) n) (k : Nat) (hw : 0 < w) (hk : k / w < n) :
    (fromDigits w v.toList).testBit k = (v[k / w]).getLsbD (k % w) := by
  have helem : v.toList[k / w]? = some v[k / w] := by simp [hk]
  rw [fromDigits_testBit w hw, helem, Option.getD_some]

/-! ### The bits of a frame -/

/-- Bit k of the payload's sum is bit k mod 8 of byte 1 + k div 8 (R404). -/
theorem payload_testBit (f : Frame) (k : Nat) (hk : k / 8 < 22) :
    (fromDigits 8 (payload f).toList).testBit k = (f[1 + k / 8]).getLsbD (k % 8) := by
  have hbyte : (payload f)[k / 8] = f[1 + k / 8] := by
    simp only [payload_getElem, Nat.add_comm]
  rw [fromDigits_testBit_getElem (payload f) k (by decide) hk, hbyte]

/-- Bit j of channel i is bit 11i + j of the channels' sum (R402). -/
theorem channels_testBit (ch : Channels) {i j : Nat} (hi : i < 16) (hj : j < 11) :
    (fromDigits 11 ch.toList).testBit (11 * i + j) = (ch[i]).getLsbD j := by
  have hdiv : (11 * i + j) / 11 = i := by omega
  have hmod : (11 * i + j) % 11 = j := by omega
  rw [fromDigits_testBit_getElem ch _ (by decide) (by omega)]
  simp only [hdiv, hmod]

/-- The payload of a packed frame has the channels' sum, all 176 bits of it (R402). -/
theorem fromDigits_payload_pack (ch : Channels) :
    fromDigits 8 (payload (pack ch)).toList = fromDigits 11 ch.toList := by
  have hfits : fromDigits 11 ch.toList < 2 ^ (8 * 22) := by simpa using fromDigits_lt 11 ch.toList
  rw [payload_pack, fromDigits_toDigits, Nat.mod_eq_of_lt hfits]

theorem pack_getLsbD (ch : Channels) {i j : Nat} (hi : i < 16) (hj : j < 11) :
    ((pack ch)[1 + (11 * i + j) / 8]).getLsbD ((11 * i + j) % 8) = (ch[i]).getLsbD j := by
  rw [← payload_testBit (pack ch) _ (by omega), fromDigits_payload_pack, channels_testBit ch hi hj]

theorem unpack_getLsbD (f : Frame) {i j : Nat} (hi : i < 16) (hj : j < 11) :
    ((unpack f)[i]).getLsbD j = (f[1 + (11 * i + j) / 8]).getLsbD ((11 * i + j) % 8) := by
  rw [unpack, toDigits_getLsbD _ hi hj, payload_testBit f _ (by omega)]

theorem decodeFrame_eq_ite (f : Frame) :
    decodeFrame f = if f[0] = startMarker ∧ f[24] = endMarker then some (unpack f) else none :=
  if_congr (markersOk_iff f) rfl rfl

/-- Only the markers and the payload are read (R405, R406). -/
theorem decodeFrame_congr {f g : Frame} (hstart : f[0] = g[0]) (hpayload : payload f = payload g)
    (hend : f[24] = g[24]) : decodeFrame f = decodeFrame g := by
  rw [decodeFrame_eq_ite, decodeFrame_eq_ite, unpack, unpack, hstart, hpayload, hend]

/-- Settles O29: each side's bits stand in the sum it is read from, and the two sums are one. -/
theorem frameBitLayout : Obligations.FrameBitLayout := by
  unfold Obligations.FrameBitLayout
  refine ⟨fun ch i j => pack_getLsbD ch, fun ch => ⟨?_, ?_, ?_⟩, fun f i j => unpack_getLsbD f,
    decodeFrame_eq_ite, fun f g hagree => ?_⟩
  · exact pack_getElem ch 0 (by decide)
  · exact pack_getElem ch 23 (by decide)
  · exact pack_getElem ch 24 (by decide)
  · have hpayload : payload f = payload g := Vector.ext fun m hm => by
      rw [payload_getElem f m hm, payload_getElem g m hm]
      exact hagree ⟨m + 1, by omega⟩ (Fin.ne_of_val_ne (by simp; omega))
    exact decodeFrame_congr (hagree 0 (by decide)) hpayload (hagree 24 (by decide))

/-! ### The round trips -/

theorem unpack_pack (ch : Channels) : unpack (pack ch) = ch := by
  rw [unpack, fromDigits_payload_pack, toDigits_fromDigits]

theorem markersOk_pack (ch : Channels) : markersOk (pack ch) = true :=
  (markersOk_iff _).mpr ⟨pack_getElem ch 0 (by decide), pack_getElem ch 24 (by decide)⟩

theorem decodeFrame_pack (ch : Channels) : decodeFrame (pack ch) = some ch :=
  decodeFrame_eq_some.mpr ⟨markersOk_pack ch, unpack_pack ch⟩

/-- The 16 channels hold the payload's sum, all 176 bits of it (R404). -/
theorem payload_pack_unpack (f : Frame) : payload (pack (unpack f)) = payload f := by
  have hfits : fromDigits 8 (payload f).toList < 2 ^ (11 * 16) := by
    simpa using fromDigits_lt 8 (payload f).toList
  rw [payload_pack, unpack, fromDigits_toDigits, Nat.mod_eq_of_lt hfits, toDigits_fromDigits]

/-- A frame is its markers, its payload and its flags (R400). -/
theorem frame_ext {f g : Frame} (hstart : f[0] = g[0]) (hpayload : payload f = payload g)
    (hflags : f[23] = g[23]) (hend : f[24] = g[24]) : f = g := by
  refine Vector.ext fun k hk => ?_
  obtain rfl | ⟨m, hm, rfl⟩ | rfl | rfl : k = 0 ∨ (∃ m, m < 22 ∧ k = m + 1) ∨ k = 23 ∨ k = 24 := by
    by_cases hin : 0 < k ∧ k ≤ 22
    · exact .inr (.inl ⟨k - 1, by omega⟩)
    · omega
  · exact hstart
  · rw [← payload_getElem f m hm, ← payload_getElem g m hm, hpayload]
  · exact hflags
  · exact hend

theorem pack_unpack {f : Frame} (hmarkers : markersOk f = true) (hflags : f[23] = flagsTx) :
    pack (unpack f) = f := by
  obtain ⟨hstart, hend⟩ := (markersOk_iff f).mp hmarkers
  exact frame_ext ((pack_getElem _ 0 _).trans hstart.symm) (payload_pack_unpack f)
    ((pack_getElem _ 23 _).trans hflags.symm) ((pack_getElem _ 24 _).trans hend.symm)

/-- Settles O30: the two digit sums are one, so nothing is lost either way. -/
theorem codecRoundTrip : Obligations.CodecRoundTrip := by
  unfold Obligations.CodecRoundTrip
  exact ⟨decodeFrame_pack, fun f => pack_unpack,
    fun v v' h => Function.LeftInverse.injective unpack_pack h⟩

end Sys2Proof.Machine
end

section
/-! PROOFS. SBUS_ENCODE and SBUS_DECODE (R410, R411): a frame in words and back, byte by byte, and the
answers of the two commands. -/

namespace Sys2Proof.Machine

/-! ### Frames in words -/

/-- Byte k read from words, whatever their padding (R330). -/
theorem frameFromWords_getElem {n L : Nat} (w : Vector Word n) (k : Nat) (hL : k < L) (hn : k / 4 < n) :
    (frameFromWords L w.toList)[k] = byteOfWords w k hn := by
  ext b hb
  have hdiv : (8 * k + b) / 32 = k / 4 := by omega
  have hmod : (8 * k + b) % 32 = 8 * (k % 4) + b := by omega
  rw [frameFromWords, ← BitVec.getLsbD_eq_getElem, toDigits_getLsbD _ hL hb,
    fromDigits_testBit_getElem w _ (by decide) (by omega), byteOfWords, BitVec.getElem_extractLsb']
  simp only [hdiv, hmod]

theorem frameFromWords_eq_ofFn (w : Vector Word 7) :
    frameFromWords 25 w.toList = Vector.ofFn fun k : Fin 25 => byteOfWords w k (by omega) := by
  refine Vector.ext fun k hk => ?_
  rw [frameFromWords_getElem w k hk (by omega), Vector.getElem_ofFn]

theorem markersOk_frameFromWords (w : Vector Word 7) :
    markersOk (frameFromWords 25 w.toList) = true ↔
      byteOfWords w 0 (by decide) = startMarker ∧ byteOfWords w 24 (by decide) = endMarker := by
  rw [markersOk_iff, frameFromWords_getElem w 0, frameFromWords_getElem w 24]

/-- The seven words of a frame (R206, R330). -/
def frameWords (f : Frame) : Vector Word 7 := toDigits 32 7 (fromDigits 8 f.toList)

theorem frameWords_toList (f : Frame) : (frameWords f).toList = wordsFromFrame f.toList := by
  have hcount : (f.toList.length + 3) / 4 = 7 := by rw [f.length_toList]
  rw [frameWords, wordsFromFrame, hcount]

theorem byteOfWords_frameWords (f : Frame) (k : Nat) (hk : k < 25) :
    byteOfWords (frameWords f) k (by omega) = f[k] := by
  rw [← frameFromWords_getElem _ k hk, frameWords_toList]
  simp only [frameFromWords_wordsFromFrame]

/-- The last word holds the last byte, with zero padding above it (R330). -/
theorem frameWords_last_lt (f : Frame) : ((frameWords f)[6]).toNat < 256 := by
  have hfits : fromDigits 8 f.toList < 2 ^ (32 * 6) * 256 := by simpa using fromDigits_lt 8 f.toList
  rw [frameWords, toDigits_getElem, BitVec.toNat_ofNat, Nat.shiftRight_eq_div_pow]
  exact (Nat.mod_le _ _).trans_lt (Nat.div_lt_of_lt_mul hfits)

/-! ### Channel values -/

theorem clamped_eq_clamp11 (v : Int) : clamped v = clamp11 v := by
  rw [clamped, ← clamp11_toNat, BitVec.ofInt_natCast, BitVec.ofNat_toNat, BitVec.setWidth_eq]

theorem channelWords_eq_wordsOf (ch : Channels) : channelWords ch = wordsOf ch := by
  refine List.ext_getElem (by simp [channelWords_length, wordsOf]) fun k hk _ => ?_
  simp only [channelWords_getElem, wordsOf, List.getElem_ofFn, Fin.getElem_fin]

/-! ### The two commands -/

/-- Settles O32: the answer is the frame's seven words, which hold its bytes and padding. -/
theorem sbusEncodeAnswersFrame : Obligations.SbusEncodeAnswersFrame := by
  unfold Obligations.SbusEncodeAnswersFrame
  refine ⟨rfl, fun v s => ?_⟩
  have hexec := exec_sbusEncode s v
  simp only [← clamped_eq_clamp11, ← frameWords_toList] at hexec
  exact ⟨frameWords _, hexec, fun k => byteOfWords_frameWords _ k k.isLt, frameWords_last_lt _⟩

theorem exec_sbusDecode_of_some {w : Vector Word 7} {ch : Channels} (s : State)
    (h : decodeFrame (frameFromWords 25 w.toList) = some ch) :
    exec (.sbusDecode w) s = .next (s.respond .ok (wordsOf ch)) := by
  rw [exec_sbusDecode, execSbusDecode, h, ← channelWords_eq_wordsOf]

theorem exec_sbusDecode_of_none {w : Vector Word 7} (s : State)
    (h : decodeFrame (frameFromWords 25 w.toList) = none) :
    exec (.sbusDecode w) s = .next (s.respond .badMarker (List.replicate 16 0)) := by
  rw [exec_sbusDecode, execSbusDecode, h]

/-- Settles O33: the markers of the frame in the words decide which of the two answers is given. -/
theorem sbusDecodeAnswersChannels : Obligations.SbusDecodeAnswersChannels := by
  unfold Obligations.SbusDecodeAnswersChannels
  refine ⟨rfl, fun w s => ?_⟩
  refine ⟨fun hgood => ?_, fun hbad => ?_⟩
  · exact exec_sbusDecode_of_some s
      (decodeFrame_eq_some.mpr ⟨(markersOk_frameFromWords w).mpr hgood, congrArg unpack (frameFromWords_eq_ofFn w)⟩)
  · have hmarkers : ¬ markersOk (frameFromWords 25 w.toList) = true := fun h =>
      not_and_or.mpr hbad ((markersOk_frameFromWords w).mp h)
    exact exec_sbusDecode_of_none s (decodeFrame_eq_none.mpr (Bool.eq_false_iff.mpr hmarkers))

end Sys2Proof.Machine
end

section
/-! PROOFS. The internal ports: what arrives on them (R470, R570, R705), and the command each issues
when it is granted (R621). -/

namespace Sys2Proof.Machine

variable {s : State}

/-! ### Grants -/

theorem takeCommand_serRx {x : Byte} {xs : List Byte} (h : s.serRx = x :: xs) :
    s.takeCommand .serRx = some (serCommand x, { s with serRx := xs, src := .serRx }) := by
  simp only [State.takeCommand, h]

theorem takeCommand_dgRx {d : Envelope} {ds : List Envelope} (h : s.dgRx = d :: ds) :
    s.takeCommand .dgRx = some (dgCommand d, { s with dgRx := ds, src := .dgRx }) := by
  simp only [State.takeCommand, h]

theorem takeCommand_rsRx {d : Byte × Byte} {ds : List (Byte × Byte)} (h : s.rsRx = d :: ds) :
    s.takeCommand .rsRx = some (rsCommand d, { s with rsRx := ds, src := .rsRx }) := by
  simp only [State.takeCommand, h]

theorem takeCommand_timer (h : s.tickPend = true) :
    s.takeCommand .timer = some (timerCommand, { s with src := .timer }) := if_pos h

/-- A datagram's command is the encoding of DGRAM_RX with the datagram's seven words (R705). -/
theorem dgCommand_eq_encode (d : Envelope) :
    ∃ w : Vector Word 7, w.toList = wordsFromFrame d.toList ∧ encode (.dgramRx w) = dgCommand d := by
  have hlen : (wordsFromFrame d.toList).length = 7 := by rw [wordsFromFrame_length, d.length_toList]
  obtain ⟨w, hw⟩ := takeOps_of_length hlen
  refine ⟨w, takeOps_ok hw, ?_⟩
  have hword : encodeWord (.dgramRx w) = 0x07000070 := by
    simp [encodeWord, Instr.opcode, Opcode.row, Instr.fields]
  rw [encode, hword, dgCommand, ← takeOps_ok hw]
  rfl

/-- Settles O9: each internal port's command is an encoding, and an encoding decodes to its command. -/
theorem internalPortsIssueTheirCommands : Obligations.InternalPortsIssueTheirCommands := by
  unfold Obligations.InternalPortsIssueTheirCommands
  intro s
  refine ⟨fun x xs h => ?_, fun d ds h => ?_, fun r n ds h => ?_, fun h => ?_⟩
  · exact ⟨_, takeCommand_serRx h, decode_eq_ok_iff.mpr rfl⟩
  · obtain ⟨w, hw, hencode⟩ := dgCommand_eq_encode d
    exact ⟨_, w, takeCommand_dgRx h, decode_eq_ok_iff.mpr hencode, hw⟩
  · exact ⟨_, takeCommand_rsRx h, decode_eq_ok_iff.mpr rfl⟩
  · exact ⟨_, takeCommand_timer h, decode_eq_ok_iff.mpr rfl⟩

/-! ### Arrivals -/

theorem deliver_serByte (h : s.inReset = false) (x : Byte) :
    s.deliver (.serByte x) = { s with serRx := s.serRx ++ [x] } := if_neg (by simp [h])

theorem deliver_datagram (h : s.inReset = false) (d : List Byte) :
    s.deliver (.datagram d) = s.dgArrive d := if_neg (by simp [h])

theorem deliver_radioStatus (h : s.inReset = false) (d : List Byte) :
    s.deliver (.radioStatus d) = s.rsArrive d := if_neg (by simp [h])

/-- A datagram of 26 bytes is an envelope, and is queued last (R705). -/
theorem dgArrive_envelope (s : State) (e : Envelope) :
    s.dgArrive e.toList = { s with dgRx := s.dgRx ++ [e] } := dif_pos e.length_toList

theorem dgArrive_of_length_ne {d : List Byte} (h : d.length ≠ 26) :
    s.dgArrive d = s.cntInc .dgramDrop := dif_neg h

theorem rsArrive_pair (s : State) (r n : Byte) :
    s.rsArrive [r, n] = { s with rsRx := s.rsRx ++ [(r, n)] } := rfl

theorem rsArrive_of_length_ne {d : List Byte} (h : d.length ≠ 2) :
    s.rsArrive d = s.cntInc .rstatDrop := by
  unfold State.rsArrive
  split
  next => exact absurd rfl h
  next => rfl

/-- Settles O10: the three ports, and the two lengths that are dropped. -/
theorem inputsQueueOrDrop : Obligations.InputsQueueOrDrop := by
  unfold Obligations.InputsQueueOrDrop
  intro s hrel
  refine ⟨deliver_serByte hrel, fun e => ?_, fun d hd => ?_, fun r n => ?_, fun d hd => ?_⟩
  · rw [deliver_datagram hrel, dgArrive_envelope]
  · rw [deliver_datagram hrel, dgArrive_of_length_ne hd]
    rfl
  · rw [deliver_radioStatus hrel, rsArrive_pair]
  · rw [deliver_radioStatus hrel, rsArrive_of_length_ne hd]
    rfl

end Sys2Proof.Machine
end

section
/-! PROOFS. FS_PUSH, byte by byte (R451 to R454, R460 to R462): the answer to each kind of push, and
what the judgement of a full candidate leaves. -/

namespace Sys2Proof.Machine

variable {s u : State} {x : Byte} {f : Frame} {ch : Channels}

/-! ### The answer of a push -/

/-- FS_PUSH answers the flags and channels of its push (R460). -/
theorem exec_fsPush_of_eq {p : PushFlags} (h : fsPush x s = ⟨u, p, ch⟩) :
    exec (.fsPush x) s = .next (u.respond .ok (p.word u.fsCnt :: channelWords ch)) := by
  rw [exec_fsPush, execFsPush, h]

/-- A push that emits nothing and judges nothing answers FS_CNT and 16 zeros (R460). -/
theorem exec_fsPush_of_quiet (h : fsPush x s = .quiet u) :
    exec (.fsPush x) s
      = .next (u.respond .ok (BitVec.ofNat 32 (u.fsCnt.val * 256) :: List.replicate 16 0)) := by
  rw [exec_fsPush_of_eq h, pushFlags_quiet_word, channelWords_zero]

/-- Settles O34: a byte that completes no candidate is skipped, starts one, or is appended. -/
theorem fsPushSearchesAndCollects : Obligations.FsPushSearchesAndCollects := by
  unfold Obligations.FsPushSearchesAndCollects
  intro x s
  refine ⟨fun h0 hx => ?_, fun h0 hx => ?_, fun ⟨hpos, hlt⟩ => ?_⟩
  · have hpush := exec_fsPush_of_quiet (fsPush_searching_skip s h0 hx)
    rw [h0] at hpush
    exact hpush
  · subst hx
    have hpush := exec_fsPush_of_quiet (fsPush_searching_start s h0)
    have hcnt : BitVec.ofNat 32 ((1 : Fin 25).val * 256) = 0x100 := by decide
    rw [hcnt] at hpush
    exact hpush
  · exact exec_fsPush_of_quiet (fsPush_collecting s (by omega) (by omega))

/-! ### The judgement -/

/-- The 25th byte completes a candidate, which is judged (R453). -/
theorem fsPush_completes (x : Byte) (h : s.fsCnt.val = 24) : fsPush x s = judge (s.fsBuf.set 24 x) s := by
  rw [fsPush_full s h]
  simp only [h]

theorem judge_emits (s : State) (h : markersOk f = true) : judge f s =
    ⟨(s.fsEmit f (unpack f)).keep f 25 0, ⟨true, false, false, s.fsStore⟩, unpack f⟩ := by
  simp only [judge, decodeFrame_eq_some.mpr ⟨h, rfl⟩]

theorem judge_resyncs (s : State) {j : Fin 24} (h : markersOk f = false) (hj : laterMarker f = some j) :
    judge f s = ⟨(s.cntInc .fsResync).keep f (j.val + 1) ⟨24 - j.val, by omega⟩,
      ⟨false, true, false, false⟩, Vector.replicate 16 0⟩ := by
  simp only [judge, decodeFrame_eq_none.mpr h, hj]

theorem judge_drops (s : State) (h : markersOk f = false) (hnone : laterMarker f = none) :
    judge f s = ⟨(s.cntInc .fsDrop).keep f 25 0, ⟨false, false, true, false⟩, Vector.replicate 16 0⟩ := by
  simp only [judge, decodeFrame_eq_none.mpr h, hnone]

/-! ### Emission -/

/-- The flag word of an emission: EMIT, and STORED when the frame was stored (R460). -/
theorem pushFlags_emit_word (stored : Bool) :
    (⟨true, false, false, stored⟩ : PushFlags).word 0 = if stored then 9 else 1 := by
  revert stored; decide

theorem fsBus_val (s : State) : s.fsBus.val = if s.ctrl.getLsbD 5 then 1 else 0 := by
  unfold State.fsBus
  split <;> rfl

/-- The state an emission leaves (R454, R462). -/
theorem fsEmit_keep_eq (s : State) (f : Frame) (ch : Channels) :
    (s.fsEmit f ch).keep f 25 0 = { s with
      fsBuf := keepFrom f 25 s.judged, fsCnt := 0, judged := s.judged + 1
      fsOut := s.fsOut ++ [⟨f, ch⟩], counters := s.counters.set 5 (s.counters[5] + 1)
      ct := if s.ctrl.getLsbD 4
        then s.ct.set (if s.ctrl.getLsbD 5 then 1 else 0) ch (by split <;> omega) else s.ct } := by
  rw [keep_eq, fsEmit_eq]
  simp only [fsBus_val, State.fsStore]

/-- Settles O35: the candidate's markers hold, so it is emitted. -/
theorem fsPushEmits : Obligations.FsPushEmits := by
  unfold Obligations.FsPushEmits
  intro s h24 h0
  have hmarkers : markersOk (s.fsBuf.set 24 0x00) = true :=
    (markersOk_iff _).mpr ⟨by simpa [startMarker] using h0, by simp [endMarker]⟩
  have hpush := (fsPush_completes 0x00 h24).trans (judge_emits s hmarkers)
  refine ⟨keepFrom (s.fsBuf.set 24 0x00) 25 s.judged, ?_⟩
  rw [exec_fsPush_of_eq hpush, State.keep_fsCnt, pushFlags_emit_word, channelWords_eq_wordsOf, fsEmit_keep_eq]
  rfl

/-! ### Resynchronisation and drop -/

/-- The flag word of a resynchronisation: RESYNC, and FS_CNT in bits 12:8 (R460). -/
theorem pushFlags_resync_word (cnt : Fin 25) :
    (⟨false, true, false, false⟩ : PushFlags).word cnt = BitVec.ofNat 32 (2 + cnt.val * 256) := by
  revert cnt; decide

theorem pushFlags_drop_word : (⟨false, false, true, false⟩ : PushFlags).word 0 = 4 := by decide

theorem markersOk_eq_false_iff : markersOk f = false ↔ f[0] ≠ startMarker ∨ f[24] ≠ endMarker := by
  rw [← Bool.not_eq_true, markersOk_iff, not_and_or]

/-- The first start marker behind byte 0 is the one found (R461). -/
theorem laterMarker_of_first {j : Fin 24} (hj : f[j.val + 1] = startMarker)
    (hfirst : ∀ i : Fin 24, i < j → f[i.val + 1] ≠ startMarker) : laterMarker f = some j := by
  cases h : laterMarker f with
  | none => exact absurd hj (laterMarker_eq_none.mp h j)
  | some i =>
    obtain ⟨hi, hbefore⟩ := laterMarker_eq_some h
    obtain hlt | rfl | hgt := lt_trichotomy i j
    · exact absurd hi (hfirst i hlt)
    · rfl
    · exact absurd hj (hbefore j hgt)

/-- Settles O36: the search behind byte 0 finds the earliest marker, or there is none. -/
theorem fsPushResyncsOrDrops : Obligations.FsPushResyncsOrDrops := by
  unfold Obligations.FsPushResyncsOrDrops
  rintro x s f h24 rfl hbad
  have hmarkers := markersOk_eq_false_iff.mpr hbad
  have hjudge := fsPush_completes x h24
  refine ⟨fun k hk hmarker hfirst => ?_, fun hnone => ?_⟩
  · obtain ⟨j, rfl⟩ : ∃ j : Fin 24, k = j.succ := ⟨k.pred (Fin.ne_of_val_ne (by simp; omega)), by simp⟩
    have hlater := laterMarker_of_first (j := j) hmarker fun i hi =>
      hfirst i.succ (by simp) (Fin.succ_lt_succ_iff.mpr hi)
    refine ⟨_, ⟨24 - j.val, by omega⟩, by simp, fun i hi => keepFrom_getElem _ _ s.judged i hi, ?_⟩
    rw [exec_fsPush_of_eq (hjudge.trans (judge_resyncs s hmarkers hlater)), State.keep_fsCnt,
      pushFlags_resync_word, channelWords_zero, keep_eq]
    have hcnt : 25 - j.succ.val = 24 - j.val := by simp
    rw [hcnt]
    rfl
  · have hlater := laterMarker_eq_none.mpr fun i => hnone i.succ (by simp)
    refine ⟨keepFrom (s.fsBuf.set 24 x) 25 s.judged, ?_⟩
    rw [exec_fsPush_of_eq (hjudge.trans (judge_drops s hmarkers hlater)), State.keep_fsCnt,
      pushFlags_drop_word, channelWords_zero, keep_eq]
    rfl

end Sys2Proof.Machine
end

section
/-! PROOFS. FrameSync on a byte stream (R463 to R465). A run of pushes is a fold of the state that one
push leaves, and while the bytes of a good frame come, FS_BUF holds those that have come. -/

namespace Sys2Proof.Machine

variable {s t u : State} {f : Frame} {k : Nat}

/-! ### A run of pushes -/

/-- The state FS_PUSH leaves (R460). -/
def State.afterPush (s : State) (x : Byte) : State :=
  let r := fsPush x s
  r.state.respond .ok (r.flags.word r.state.fsCnt :: channelWords r.channels)

theorem exec_fsPush_eq_afterPush (s : State) (x : Byte) : exec (.fsPush x) s = .next (s.afterPush x) := rfl

theorem pushAll_eq_foldl (xs : List Byte) (s : State) : pushAll xs s = some (xs.foldl State.afterPush s) := by
  induction xs generalizing s with
  | nil => rfl
  | cons x xs ih =>
    have hstep : pushAll (x :: xs) s = pushAll xs (s.afterPush x) := by
      simp only [pushAll, List.map_cons, execAll, exec_fsPush_eq_afterPush]
    rw [hstep, ih, List.foldl_cons]

/-- A push that emits nothing and judges nothing leaves its state, but for the answer. -/
theorem afterPush_of_quiet {x : Byte} (h : fsPush x s = .quiet u) : ∃ rs, s.afterPush x = u.respond .ok rs :=
  ⟨_, by rw [State.afterPush, h, PushResult.quiet_state]⟩

/-- From `s` to `t` FrameSync emitted the records `rs`, and resynchronised and dropped nothing. -/
structure Emits (rs : List FsRecord) (s t : State) : Prop where
  fsOut  : t.fsOut = s.fsOut ++ rs
  resync : t.counters[6] = s.counters[6]
  drop   : t.counters[7] = s.counters[7]

theorem Emits.nothing (hout : t.fsOut = s.fsOut) (hcnt : t.counters = s.counters) : Emits [] s t :=
  ⟨by rw [hout, List.append_nil], by rw [hcnt], by rw [hcnt]⟩

theorem Emits.trans {rs rs' : List FsRecord} (h : Emits rs s t) (h' : Emits rs' t u) :
    Emits (rs ++ rs') s u :=
  ⟨by rw [h'.fsOut, h.fsOut, List.append_assoc], h'.resync.trans h.resync, h'.drop.trans h.drop⟩

/-! ### The bytes of one frame -/

/-- FrameSync has collected the first `k` bytes of the frame `f`. -/
structure Collected (f : Frame) (k : Nat) (s : State) : Prop where
  fsCnt : s.fsCnt.val = k
  fsBuf : ∀ i (_ : i < k) (_ : i < 25), s.fsBuf[i] = f[i]

/-- A frame whose markers hold is collected byte by byte (R451, R452). -/
theorem Collected.afterPush (hf : f[0] = startMarker) (hk : k + 1 < 25) (h : Collected f k s) :
    Collected f (k + 1) (s.afterPush f[k]) ∧ Emits [] s (s.afterPush f[k]) := by
  obtain ⟨hcnt, hbuf⟩ := h
  obtain rfl | hpos := Nat.eq_zero_or_pos k
  · have hpush := fsPush_searching_start s hcnt
    rw [← hf] at hpush
    obtain ⟨_, hafter⟩ := afterPush_of_quiet hpush
    rw [hafter]
    refine ⟨⟨rfl, fun i hi _ => ?_⟩, Emits.nothing rfl rfl⟩
    obtain rfl : i = 0 := by omega
    simp
  · have hpush := fsPush_collecting (x := f[k]) s (by omega) (by omega)
    obtain ⟨_, hafter⟩ := afterPush_of_quiet hpush
    rw [hafter]
    refine ⟨⟨congrArg (· + 1) hcnt, fun i hi hi' => ?_⟩, Emits.nothing rfl rfl⟩
    obtain rfl | hne := eq_or_ne i k
    · simp [hcnt]
    · simpa [hcnt, Vector.getElem_set, hne.symm] using hbuf i (by omega) hi'

theorem toList_take_add_one (f : Frame) (hk : k < 25) :
    f.toList.take (k + 1) = f.toList.take k ++ [f[k]] := by
  rw [← Vector.getElem_toList (by simpa using hk), List.take_concat_get']

/-- The first bytes of a frame, pushed from Searching, are collected (R451, R452). -/
theorem collected_take (hf : f[0] = startMarker) (hs : s.fsCnt.val = 0) (hk : k < 25) :
    Collected f k ((f.toList.take k).foldl State.afterPush s) ∧
      Emits [] s ((f.toList.take k).foldl State.afterPush s) := by
  induction k with
  | zero => exact ⟨⟨hs, fun i hi => absurd hi (Nat.not_lt_zero i)⟩, Emits.nothing rfl rfl⟩
  | succ k ih =>
    obtain ⟨hcollected, hemits⟩ := ih (by omega)
    obtain ⟨hcollected', hemits'⟩ := hcollected.afterPush hf hk
    rw [toList_take_add_one f (by omega), List.foldl_append]
    exact ⟨hcollected', hemits.trans hemits'⟩

/-- The push of a frame's byte 24 emits the frame (R454, R464). -/
theorem Collected.emits (hf : markersOk f = true) (h : Collected f 24 s) :
    (s.afterPush f[24]).fsCnt.val = 0 ∧ Emits [⟨f, unpack f⟩] s (s.afterPush f[24]) := by
  obtain ⟨hcnt, hbuf⟩ := h
  have hcandidate : s.fsBuf.set 24 f[24] = f := Vector.ext fun i hi => by
    obtain rfl | hne := eq_or_ne i 24
    · simp
    · simpa [Vector.getElem_set, hne.symm] using hbuf i (by omega) hi
  have hpush := fsPush_completes f[24] hcnt
  rw [hcandidate, judge_emits s hf] at hpush
  rw [State.afterPush, hpush, fsEmit_keep_eq]
  exact ⟨rfl, rfl, by simp, by simp⟩

/-- A whole frame, pushed from Searching, is emitted and leaves FrameSync Searching (R464). -/
theorem foldl_frame_emits (hf : markersOk f = true) (hs : s.fsCnt.val = 0) :
    (f.toList.foldl State.afterPush s).fsCnt.val = 0 ∧
      Emits [⟨f, unpack f⟩] s (f.toList.foldl State.afterPush s) := by
  obtain ⟨hstart, -⟩ := (markersOk_iff f).mp hf
  obtain ⟨hcollected, hemits⟩ := collected_take (k := 24) hstart hs (by decide)
  obtain ⟨hcnt, hemits'⟩ := hcollected.emits hf
  have hlast : f.toList = f.toList.take 24 ++ [f[24]] := by
    rw [← toList_take_add_one f (by decide), List.take_of_length_le f.length_toList.le]
  rw [hlast, List.foldl_append]
  exact ⟨hcnt, hemits.trans hemits'⟩

/-- Whole frames, pushed from Searching, are emitted in order (R464). -/
theorem foldl_frames_emit (fs : List Frame) (hfs : ∀ g ∈ fs, markersOk g = true) (hs : s.fsCnt.val = 0) :
    ((fs.flatMap fun g => g.toList).foldl State.afterPush s).fsCnt.val = 0 ∧
      Emits (fs.map fun g => ⟨g, unpack g⟩) s ((fs.flatMap fun g => g.toList).foldl State.afterPush s) := by
  induction fs generalizing s with
  | nil => exact ⟨hs, Emits.nothing rfl rfl⟩
  | cons g fs ih =>
    obtain ⟨hg, hfs⟩ := List.forall_mem_cons.mp hfs
    obtain ⟨hcnt, hemits⟩ := foldl_frame_emits hg hs
    obtain ⟨hcnt', hemits'⟩ := ih hfs hcnt
    rw [List.flatMap_cons, List.foldl_append]
    exact ⟨hcnt', hemits.trans hemits'⟩

/-- Settles O37: the whole frames are emitted, and the bytes of the next are collected. -/
theorem cleanStreamEmitsEveryFrame : Obligations.CleanStreamEmitsEveryFrame := by
  unfold Obligations.CleanStreamEmitsEveryFrame
  intro fs f k s hs hfs hf hk
  obtain ⟨hcnt, hwhole⟩ := foldl_frames_emit fs hfs hs
  obtain ⟨hnext, hrest⟩ := collected_take ((markersOk_iff f).mp hf).1 hcnt hk
  have hemits := hwhole.trans hrest
  rw [List.append_nil] at hemits
  refine ⟨_, pushAll_eq_foldl _ s, ?_⟩
  rw [List.foldl_append]
  exact ⟨hnext.fsCnt, hemits.fsOut, hemits.resync, hemits.drop⟩

/-! ### A burst without a start marker -/

/-- From Searching, bytes other than the start marker are answered and do nothing else (R451). -/
theorem foldl_burst {g : List Byte} (hg : startMarker ∉ g) (hs : s.fsCnt.val = 0) :
    ∃ rs, g.foldl State.afterPush s = { s with responses := rs } := by
  induction g generalizing s with
  | nil => exact ⟨_, rfl⟩
  | cons x g ih =>
    obtain ⟨hx, hg⟩ := not_or.mp (List.mem_cons.not.mp hg)
    obtain ⟨_, hafter⟩ := afterPush_of_quiet (fsPush_searching_skip s hs (Ne.symm hx))
    rw [List.foldl_cons, hafter]
    obtain ⟨rs, hrs⟩ := ih (s := s.respond _ _) hg hs
    exact ⟨rs, hrs⟩

/-- Settles O38: after the burst FrameSync is as it was, so the frame is emitted. -/
theorem burstWithoutMarkerLosesNoFrame : Obligations.BurstWithoutMarkerLosesNoFrame := by
  unfold Obligations.BurstWithoutMarkerLosesNoFrame
  intro g f s hs hg hf
  obtain ⟨rs, hburst⟩ := foldl_burst hg hs
  refine ⟨⟨_, pushAll_eq_foldl g s, ?_⟩, _, pushAll_eq_foldl _ s, ?_⟩
  · rw [hburst]
    exact ⟨rfl, rfl, rfl⟩
  · rw [List.foldl_append, hburst]
    obtain ⟨hcnt, hemits⟩ := foldl_frame_emits (s := { s with responses := rs }) hf hs
    exact ⟨hcnt, hemits.fsOut⟩

end Sys2Proof.Machine
end

section
/-! PROOFS. ChannelTable and NOP (R510 to R515, R730): the answers of CT_SET, CT_GET, CT_SNAPSHOT and
NOP, and what a run of CT_SETs of distinct channels leaves in every slot of the bus. -/

namespace Sys2Proof.Machine

variable {s : State} {b : BusIx}

/-- An answer leaves the slots alone. -/
@[simp] theorem State.respond_slot (s : State) (st : Status) (rs : List Word) (b : BusIx) (c : ChIx) :
    (s.respond st rs).slot b c = s.slot b c := rfl

/-! ### A run of CT_SETs -/

/-- The state CT_SET leaves (R510). -/
def State.afterSet (b : BusIx) (s : State) (cv : ChIx × Word) : State :=
  (s.writeSlot b cv.1 (clamped cv.2.toInt)).respond .ok []

theorem exec_ctSet_eq_afterSet (s : State) (b : BusIx) (cv : ChIx × Word) :
    exec (.ctSet b cv.1 cv.2) s = .next (s.afterSet b cv) := by
  rw [exec_ctSet, State.afterSet, clamped_eq_clamp11, s32]

theorem execAll_ctSets_eq_foldl (sets : List (ChIx × Word)) (s : State) :
    execAll (sets.map fun cv => .ctSet b cv.1 cv.2) s = some (sets.foldl (State.afterSet b) s) := by
  induction sets generalizing s with
  | nil => rfl
  | cons cv sets ih => simp only [List.map_cons, execAll, exec_ctSet_eq_afterSet, ih, List.foldl_cons]

theorem afterSet_slot (s : State) (b : BusIx) (cv : ChIx × Word) (c : ChIx) :
    (s.afterSet b cv).slot b c = if cv.1 = c then clamped cv.2.toInt else s.slot b c := by
  rw [State.afterSet, State.respond_slot, State.writeSlot_slot]
  simp only [true_and]

theorem foldl_afterSet_slot_of_not_mem {sets : List (ChIx × Word)} {c : ChIx}
    (hc : c ∉ sets.map Prod.fst) : (sets.foldl (State.afterSet b) s).slot b c = s.slot b c := by
  induction sets generalizing s with
  | nil => rfl
  | cons cv sets ih =>
    obtain ⟨hne, hc⟩ := not_or.mp (List.mem_cons.not.mp hc)
    rw [List.foldl_cons, ih hc, afterSet_slot, if_neg (Ne.symm hne)]

/-- A set whose channel is not set again is the one that stays in the slot (R514). -/
theorem foldl_afterSet_slot_of_mem {sets : List (ChIx × Word)} (hsets : (sets.map Prod.fst).Nodup)
    {cv : ChIx × Word} (hcv : cv ∈ sets) :
    (sets.foldl (State.afterSet b) s).slot b cv.1 = clamped cv.2.toInt := by
  induction sets generalizing s with
  | nil => exact absurd hcv List.not_mem_nil
  | cons first sets ih =>
    obtain ⟨hfirst, hsets⟩ := List.nodup_cons.mp hsets
    rw [List.foldl_cons]
    rcases List.mem_cons.mp hcv with rfl | hlater
    · rw [foldl_afterSet_slot_of_not_mem hfirst, afterSet_slot, if_pos rfl]
    · exact ih hsets hlater

theorem exec_ctSnapshot_wordsOf (s : State) (b : BusIx) :
    exec (.ctSnapshot b) s = .next (s.respond .ok (wordsOf s.ct[b])) := by
  rw [exec_ctSnapshot, channelWords_eq_wordsOf]

/-- Settles O28: the sets fold over the table, and the snapshot answers each slot as the fold left it. -/
theorem snapshotSeesEveryCompletedSet : Obligations.SnapshotSeesEveryCompletedSet := by
  unfold Obligations.SnapshotSeesEveryCompletedSet
  intro b sets s hsets
  exact ⟨_, _, execAll_ctSets_eq_foldl sets s, exec_ctSnapshot_wordsOf _ b,
    fun _ hcv => foldl_afterSet_slot_of_mem hsets hcv, fun _ hc => foldl_afterSet_slot_of_not_mem hc⟩

/-! ### The commands one by one -/

/-- Settles O26: the slot written holds the clamped operand, and every other slot what it held. -/
theorem ctSetStoresClamped : Obligations.CtSetStoresClamped := by
  unfold Obligations.CtSetStoresClamped
  refine ⟨rfl, fun b c v s => ⟨_, exec_ctSet s b c v, ?_, fun b' c' hother => ?_⟩⟩
  · change (((s.writeSlot b c (clamp11 (s32 v))).slot b c).toNat : Int) = _
    rw [State.writeSlot_slot, if_pos ⟨rfl, rfl⟩, clamp11_toNat, s32]
  · have hslot := s.writeSlot_slot b b' c c' (clamp11 (s32 v))
    rwa [if_neg fun ⟨hb, hc⟩ => hother (Prod.ext hb.symm hc.symm)] at hslot

/-- Settles O27: each of the three only answers. -/
theorem tableReadsAndNop : Obligations.TableReadsAndNop := by
  unfold Obligations.TableReadsAndNop
  exact ⟨rfl, rfl, rfl, fun s => ⟨exec_ctGet s, exec_ctSnapshot_wordsOf s, exec_nop s⟩⟩

end Sys2Proof.Machine
end

section
/-! PROOFS. LinkQualityMonitor (R550 to R560): the filter is exact and never overflows, the hysteresis
decides FAILSAFE, and no other command or agent touches the link's state. -/

namespace Sys2Proof.Machine

variable {s t : State} {raw r n : Word} {F : Filtered} {d f : Int}

/-! ### The filter -/

/-- t·Q for the sample t of a raw word (R550, R551). -/
def sampleQ (raw : Word) : Int := -raw.toInt * 2 ^ 16

theorem neg_s32_mul_qUnit (raw : Word) : -s32 raw * qUnit = sampleQ raw := rfl

/-- A sample is at most 2^31 in size, so t·Q is at most 2^47 (R554). -/
theorem sampleQ_bounds (raw : Word) : -2 ^ 47 ≤ sampleQ raw ∧ sampleQ raw ≤ 2 ^ 47 := by
  have hlo := raw.le_toInt
  have hhi := raw.toInt_lt
  unfold sampleQ
  omega

/-- The seed is exact (R552). -/
theorem lqSeed_toInt (raw : Word) : (lqSeed (-s32 raw)).toInt = sampleQ raw := by
  obtain ⟨hlo, hhi⟩ := sampleQ_bounds raw
  rw [lqSeed, neg_s32_mul_qUnit, BitVec.toInt_ofInt_eq_self (by decide) (by omega) (by omega)]

/-- The part a/Q of a distance, rounded down, goes the distance's way and not past its end, for
0 ≤ a ≤ Q (R554). -/
theorem mul_ediv_between {d a q : Int} (ha : 0 ≤ a) (haq : a ≤ q) (hq : 0 < q) :
    min 0 d ≤ d * a / q ∧ d * a / q ≤ max 0 d := by
  rcases le_total 0 d with hd | hd
  · rw [min_eq_left hd, max_eq_right hd]
    exact ⟨Int.ediv_nonneg (mul_nonneg hd ha) hq.le,
      Int.ediv_le_of_le_mul hq (mul_le_mul_of_nonneg_left haq hd)⟩
  · rw [min_eq_right hd, max_eq_left hd]
    exact ⟨(Int.le_ediv_iff_mul_le hq).mpr (mul_le_mul_of_nonpos_left haq hd),
      Int.ediv_le_of_le_mul hq (by simpa using mul_nonpos_of_nonpos_of_nonneg hd ha)⟩

/-- The floored step of R553, from the register value x towards T = t·Q. -/
def flooredStep (x T : Int) (alpha : BitVec 16) : Int := x + Int.fdiv ((T - x) * alpha.toNat) (2 ^ 16)

/-- The step ends between its start and its target (R554). -/
theorem flooredStep_between (x T : Int) (alpha : BitVec 16) :
    min x T ≤ flooredStep x T alpha ∧ flooredStep x T alpha ≤ max x T := by
  have halpha : (alpha.toNat : Int) ≤ 2 ^ 16 := by exact_mod_cast alpha.isLt.le
  have hstep := mul_ediv_between (d := T - x) (Int.natCast_nonneg alpha.toNat) halpha (by decide)
  rw [flooredStep, Int.fdiv_eq_ediv_of_nonneg _ (by decide)]
  omega

/-- The update is exact in every state (R553, R554). -/
theorem lqUpdate_toInt (F : Filtered) (raw : Word) (alpha : BitVec 16) :
    (lqUpdate F (-s32 raw) alpha).toInt = flooredStep F.toInt (sampleQ raw) alpha := by
  obtain ⟨hlo, hhi⟩ := flooredStep_between F.toInt (sampleQ raw) alpha
  obtain ⟨hTlo, hThi⟩ := sampleQ_bounds raw
  have hFlo := F.le_toInt
  have hFhi := F.toInt_lt
  have hmodel : F.toInt + (-s32 raw * qUnit - F.toInt) * alpha.toNat / qUnit
      = flooredStep F.toInt (sampleQ raw) alpha := by
    rw [flooredStep, Int.fdiv_eq_ediv_of_nonneg _ (by decide)]
    rfl
  rw [lqUpdate, hmodel, BitVec.toInt_ofInt_eq_self (by decide) (by omega) (by omega)]

theorem lqUpdate_between (F : Filtered) (raw : Word) (alpha : BitVec 16) :
    min F.toInt (sampleQ raw) ≤ (lqUpdate F (-s32 raw) alpha).toInt ∧
      (lqUpdate F (-s32 raw) alpha).toInt ≤ max F.toInt (sampleQ raw) := by
  rw [lqUpdate_toInt]
  exact flooredStep_between _ _ _

theorem filtered_of_unseeded (h : s.lqSeeded = false) (tr tn : Int) :
    s.filtered tr tn = (lqSeed tr, lqSeed tn) := by
  simp [State.filtered, h]

theorem filtered_of_seeded (h : s.lqSeeded = true) (tr tn : Int) :
    s.filtered tr tn = (lqUpdate s.fRssi tr s.alpha, lqUpdate s.fNoise tn s.alpha) := by
  simp [State.filtered, h]

/-! ### The command -/

/-- LQ_OBSERVE with the filter's new values and its whole frame written out (R556). -/
theorem exec_lqObserve_of_filtered {F N : Filtered} (h : s.filtered (-s32 r) (-s32 n) = (F, N)) :
    exec (.lqObserve r n) s = .next { s with
      fRssi := F, fNoise := N, lqSeeded := true
      failsafe := s.hysteresis (F.toInt - N.toInt) F.toInt
      counters := s.counters.set 11 (s.counters[11] + 1)
      responses := s.responses ++ answer s.src .ok
        [lqWord (s.hysteresis (F.toInt - N.toInt) F.toInt) (!s.lqSeeded)] } := by
  rw [exec_lqObserve, State.observe, h]
  rfl

theorem lqWord_seededNow (failsafe : Bool) : lqWord failsafe true = if failsafe then 3 else 2 := by
  cases failsafe <;> rfl

theorem lqWord_not_seededNow (failsafe : Bool) : lqWord failsafe false = if failsafe then 1 else 0 := by
  cases failsafe <;> rfl

/-- Settles O40: both filtered values are seeds, which are exact. -/
theorem lqObserveSeeds : Obligations.LqObserveSeeds := by
  unfold Obligations.LqObserveSeeds
  intro r n s hs
  have hexec := exec_lqObserve_of_filtered (filtered_of_unseeded hs (-s32 r) (-s32 n))
  rw [hs, Bool.not_false, lqWord_seededNow] at hexec
  exact ⟨_, _, _, hexec, lqSeed_toInt r, lqSeed_toInt n⟩

/-- Settles O41: both filtered values are updates, exact and between the old value and the sample. -/
theorem lqObserveUpdates : Obligations.LqObserveUpdates := by
  unfold Obligations.LqObserveUpdates
  intro r n s hs
  have hexec := exec_lqObserve_of_filtered (filtered_of_seeded hs (-s32 r) (-s32 n))
  rw [hs, Bool.not_true, lqWord_not_seededNow] at hexec
  obtain ⟨hrLo, hrHi⟩ := lqUpdate_between s.fRssi r s.alpha
  obtain ⟨hnLo, hnHi⟩ := lqUpdate_between s.fNoise n s.alpha
  rw [hs]
  exact ⟨_, _, _, hexec, lqUpdate_toInt s.fRssi r s.alpha, lqUpdate_toInt s.fNoise n s.alpha,
    hrLo, hrHi, hnLo, hnHi⟩

/-! ### The hysteresis -/

theorem enters_iff : s.enters d f = true ↔ d < s.snrMin.toInt * 2 ^ 16 ∨ f < s.rssiMin.toInt * 2 ^ 16 := by
  rw [State.enters, Bool.or_eq_true, decide_eq_true_iff, decide_eq_true_iff]
  rfl

theorem exits_iff : s.exits d f = true ↔ d > s.snrMax.toInt * 2 ^ 16 ∧ f > s.rssiMax.toInt * 2 ^ 16 := by
  rw [State.exits, Bool.and_eq_true, decide_eq_true_iff, decide_eq_true_iff]
  rfl

theorem hysteresis_of_enters (h : s.enters d f = true) : s.hysteresis d f = true := if_pos h

theorem hysteresis_of_not_enters (h : ¬s.enters d f = true) :
    s.hysteresis d f = if s.exits d f then false else s.failsafe := if_neg h

/-- The hysteresis clears FAILSAFE on the exit condition only (R559). -/
theorem exits_of_cleared (hs : s.failsafe = true) (h : s.hysteresis d f = false) : s.exits d f = true := by
  by_contra hexit
  simp [State.hysteresis, hs, hexit] at h

/-- What an observation leaves in FAILSAFE is the hysteresis of the thresholds, on the new filtered
values; the thresholds stay (R557, R560). -/
theorem hysteresis_of_exec_lqObserve (h : exec (.lqObserve r n) s = .next t) :
    t.failsafe = s.hysteresis (t.fRssi.toInt - t.fNoise.toInt) t.fRssi.toInt ∧
      t.snrMax = s.snrMax ∧ t.rssiMax = s.rssiMax := by
  rw [exec_lqObserve_of_filtered rfl] at h
  cases h
  exact ⟨rfl, rfl, rfl⟩

/-- Settles O42: the three outcomes of the hysteresis on the values the observation leaves. -/
theorem hysteresisDecides : Obligations.HysteresisDecides := by
  unfold Obligations.HysteresisDecides
  intro r n s
  refine ⟨_, exec_lqObserve s r n, ?_⟩
  obtain ⟨hfs, -, -⟩ := hysteresis_of_exec_lqObserve (exec_lqObserve s r n)
  rw [hfs, ← enters_iff, ← exits_iff]
  refine ⟨hysteresis_of_enters, fun henter => ?_⟩
  rw [hysteresis_of_not_enters henter]
  exact ⟨fun hexit => if_pos hexit, fun hexit => if_neg hexit⟩

/-! ### The bound of the filter -/

/-- A value between two bounded ones is bounded. -/
theorem Bounded.of_between {G : Filtered} {T : Int} (hF : Bounded F) (hT : -2 ^ 47 ≤ T ∧ T ≤ 2 ^ 47)
    (hG : min F.toInt T ≤ G.toInt ∧ G.toInt ≤ max F.toInt T) : Bounded G := by
  unfold Bounded at hF ⊢
  omega

theorem lqSeed_bounded (raw : Word) : Bounded (lqSeed (-s32 raw)) := by
  rw [Bounded, lqSeed_toInt]
  exact sampleQ_bounds raw

theorem lqUpdate_bounded (hF : Bounded F) (raw : Word) (alpha : BitVec 16) :
    Bounded (lqUpdate F (-s32 raw) alpha) :=
  hF.of_between (sampleQ_bounds raw) (lqUpdate_between F raw alpha)

/-- The reset value 0 is bounded (R900). -/
theorem FilterBounded.toReset (s : State) (b : Bool) : FilterBounded (s.toReset b) := by
  have hzero : Bounded 0 := by unfold Bounded; decide
  exact ⟨hzero, hzero⟩

/-- The filter's new values are bounded, seeded or updated (R554). -/
theorem FilterBounded.filtered (hs : FilterBounded s) (r n : Word) :
    Bounded (s.filtered (-s32 r) (-s32 n)).1 ∧ Bounded (s.filtered (-s32 r) (-s32 n)).2 := by
  obtain ⟨hrssi, hnoise⟩ := hs
  cases hseeded : s.lqSeeded with
  | false =>
    rw [filtered_of_unseeded hseeded]
    exact ⟨lqSeed_bounded r, lqSeed_bounded n⟩
  | true =>
    rw [filtered_of_seeded hseeded]
    exact ⟨lqUpdate_bounded hrssi r _, lqUpdate_bounded hnoise n _⟩

/-- `FilterBounded` reads F_RSSI and F_NOISE only. -/
theorem FilterBounded.congr (hs : FilterBounded s) (hrssi : t.fRssi = s.fRssi)
    (hnoise : t.fNoise = s.fNoise) : FilterBounded t := by
  unfold FilterBounded
  rw [hrssi, hnoise]
  exact hs

theorem FilterBounded.of_exec {i : Instr} (h : exec i s = .next t) (hs : FilterBounded s) :
    FilterBounded t := by
  by_cases hi : i.opcode = .lqObserve
  · cases i with
    | lqObserve r n =>
      cases h
      exact hs.filtered r n
    | _ => cases hi
  · obtain ⟨hrssi, hnoise, -, -⟩ := (exec_writes h).link hi
    exact hs.congr hrssi hnoise

/-- Settles O17: only LQ_OBSERVE and the reset input write the filter, and both keep it bounded. -/
theorem stepKeepsFilterBounded : Obligations.StepKeepsFilterBounded := by
  unfold Obligations.StepKeepsFilterBounded
  intro s t hs h
  exact step_keeps (fun hsame hs => hs.congr hsame.fRssi hsame.fNoise)
    FilterBounded.toReset FilterBounded.of_exec h hs

/-! ### The dead zone -/

/-- The reset input is taken in the step from `s` (R901). -/
def TakesReset (s : State) : Prop := s.pick = some .input ∧ ∃ b es, s.inbox = .reset b :: es

/-- The step from `s` grants a source whose command is an observation, and runs it in the state the
grant leaves, in which FAILSAFE is as before (R221, R559). -/
def Observes (s : State) : Prop :=
  ∃ src c u r n, s.pick = some (.grant src) ∧ s.chosen.takeCommand src = some (c, u) ∧
    decode c = .ok (.lqObserve r n) ∧ u.failsafe = s.failsafe ∧ step s = exec (.lqObserve r n) u

/-- The one command that writes FAILSAFE (R118). -/
theorem lqObserve_of_failsafe_ne {i : Instr} (h : exec i s = .next t) (hne : t.failsafe ≠ s.failsafe) :
    ∃ r n, i = .lqObserve r n := by
  by_cases hi : i.opcode = .lqObserve
  · cases i with
    | lqObserve r n => exact ⟨r, n, rfl⟩
    | _ => cases hi
  · obtain ⟨-, -, -, hkeep⟩ := (exec_writes h).link hi
    exact absurd hkeep hne

/-- FAILSAFE changes only in an observation and at reset (R559). -/
theorem takesReset_or_observes_of_failsafe_ne (h : step s = .next t) (hne : t.failsafe ≠ s.failsafe) :
    TakesReset s ∨ Observes s := by
  cases step_moves h with
  | idle => exact absurd rfl hne
  | @input e es hpick hbox =>
    by_cases he : ∃ b, e = .reset b
    · obtain ⟨b, rfl⟩ := he
      exact .inl ⟨hpick, b, es, hbox⟩
    · exact absurd (deliver_sameElements e (not_exists.mp he) es).failsafe hne
  | clock => exact absurd (timerCycle_sameElements _).failsafe hne
  | illegal _ htake => exact absurd (takeCommand_sameElements htake).failsafe hne
  | @run src c u _ i hpick htake hdecode hexec =>
    have hu := (takeCommand_sameElements htake).failsafe
    obtain ⟨r, n, rfl⟩ := lqObserve_of_failsafe_ne hexec (hu ▸ hne)
    have hstep := (step_of_granted hpick htake).trans (runCommand_of_ok hdecode)
    exact .inr ⟨src, c, u, r, n, hpick, htake, hdecode, hu, hstep⟩

/-- A step that clears FAILSAFE takes the reset input, or leaves the exit condition true (R559). -/
theorem exits_of_step_cleared (h : step s = .next t) (hs : s.failsafe = true) (ht : t.failsafe = false) :
    TakesReset s ∨ t.exits (t.fRssi.toInt - t.fNoise.toInt) t.fRssi.toInt = true := by
  refine (takesReset_or_observes_of_failsafe_ne h (by simp [hs, ht])).imp_right ?_
  rintro ⟨_, _, u, r, n, -, -, -, hu, hstep⟩
  obtain ⟨hfs, hsnr, hrssi⟩ := hysteresis_of_exec_lqObserve (hstep.symm.trans h)
  have hexits := exits_of_cleared (hu.trans hs) (hfs.symm.trans ht)
  rw [exits_iff] at hexits ⊢
  rwa [hsnr, hrssi]

/-- Settles O23: who changes FAILSAFE, and what clearing it takes. -/
theorem failsafeDeadZone : Obligations.FailsafeDeadZone := by
  unfold Obligations.FailsafeDeadZone
  intro s t h
  exact ⟨takesReset_or_observes_of_failsafe_ne h,
    fun hs ht => (exits_of_step_cleared h hs ht).imp_right exits_iff.mp⟩

end Sys2Proof.Machine
end

section
/-! PROOFS. TICK (R601 to R606, R612): the state it sends from, the send loop record by record, and the
answer to each course of a tick. -/

namespace Sys2Proof.Machine

variable {s t : State} {f : TickFlags} {b : BusIx} {bytes bytes₁ bytes₂ : List Byte}

/-! ### Suppressed or not -/

/-- The state a TICK sends from: TICK_PEND cleared where the TICK is the timer's, and the tick counted
(R601). -/
def State.ticking (s : State) : State := { s with
  tickPend := if s.src = .timer then false else s.tickPend
  counters := s.counters.set 0 (s.counters[0] + 1) }

/-- TICK's result word as a number (R601). -/
theorem TickFlags.word_eq (f : TickFlags) : f.word = BitVec.ofNat 32
    (f.fsSkip.toNat + 2 * f.sentB1.toNat + 4 * f.sentB2.toNat + 8 * f.txErr.toNat) := by
  obtain ⟨skip, b1, b2, err⟩ := f
  revert skip b1 b2 err
  decide

theorem cntInc_clearTick (s : State) : s.clearTick.cntInc .tick = s.ticking := by
  rw [clearTick_eq]
  rfl

/-- In failsafe on the air side a TICK counts CNT_FS_SKIP and no more (R603). -/
theorem exec_tick_of_suppressed (hair : s.air = true) (hfs : s.failsafe = true) :
    exec .tick s = .next ((s.ticking.cntInc .fsSkip).respond .ok [1]) := by
  have hgate : (s.clearTick.air && s.clearTick.failsafe) = true := by
    rw [clearTick_eq]
    exact Bool.and_eq_true_iff.mpr ⟨hair, hfs⟩
  rw [exec_tick, State.tickBody, if_pos hgate, cntInc_clearTick, TickFlags.word_eq]
  rfl

/-- Else a TICK answers what the send loop makes of the snapshots of this instant (R604). -/
theorem exec_tick_of_sendAll {w : Word} (hgate : ¬(s.air = true ∧ s.failsafe = true))
    (hsend : sendAll s.txEnv s.ct s.txBuses ⟨false, false, false, false⟩ s.ticking = (f, t))
    (hword : f.word = w) : exec .tick s = .next (t.respond .ok [w]) := by
  have hbody : s.clearTick.tickBody = (f, t) := by
    have hopen : ¬(s.clearTick.air && s.clearTick.failsafe) = true := by
      rw [clearTick_eq]
      exact fun h => hgate (Bool.and_eq_true_iff.mp h)
    rw [State.tickBody, if_neg hopen, cntInc_clearTick, clearTick_eq]
    exact hsend
  rw [exec_tick, hbody, hword]

/-- Settles O43: the gate of R603 is closed. -/
theorem tickSuppressedByFailsafe : Obligations.TickSuppressedByFailsafe := by
  unfold Obligations.TickSuppressedByFailsafe
  intro s hair hfs
  rw [exec_tick_of_suppressed hair hfs]
  simp [State.ticking, State.cntInc_eq, State.counter, Counter.ix, State.respond]

/-! ### The send loop -/

/-- One record and its count, with the transport's answer `o` (R600, R611). -/
theorem cntInc_txSend {o : TxOutcome} (h : s.draw = o) (c : Counter) :
    (s.txSend b bytes).cntInc c = { s with
      counters := s.counters.set c.ix (s.counter c + 1)
      tx := s.tx ++ [⟨b, bytes, o⟩], txDraws := s.txDraws.tail, drawCount := s.drawCount + 1 } := by
  subst h
  rfl

/-- An accepted record is counted in CNT_TX_OK, and the loop goes on (R601, R611). -/
theorem sendAll_of_accept {env : Bool} {snap : Vector Channels 2} (h : s.draw = .accept)
    (hbytes : bytes = txBytes env b (pack snap[b])) (bs : List BusIx) (f : TickFlags) :
    sendAll env snap (b :: bs) f s =
      sendAll env snap bs (f.sent b) ((s.txSend b bytes).cntInc .txOk) := by
  rw [sendAll, h, hbytes]

/-- A rejected record is counted in CNT_TX_ERR and ends the loop (R601, R612). -/
theorem sendAll_of_reject {env : Bool} {snap : Vector Channels 2} (h : s.draw = .reject)
    (hbytes : bytes = txBytes env b (pack snap[b])) (bs : List BusIx) (f : TickFlags) :
    sendAll env snap (b :: bs) f s =
      ({ f with txErr := true }, (s.txSend b bytes).cntInc .txErr) := by
  rw [sendAll, h, hbytes]

/-! ### The courses of a tick -/

/-- Bus 1 is the first of every tick (R606). -/
theorem txBuses_eq_cons (s : State) : s.txBuses = 0 :: if s.bus2 then [1] else [] := by
  unfold State.txBuses
  split <;> rfl

/-- What a rejected record of bus 1 leaves of a TICK (R612). -/
def State.firstRejected (s : State) (bytes : List Byte) : State := (s.ticking.txSend 0 bytes).cntInc .txErr

/-- What an accepted record of bus 1 leaves of a TICK, before any record of bus 2 (R601). -/
def State.firstAccepted (s : State) (bytes : List Byte) : State := (s.ticking.txSend 0 bytes).cntInc .txOk

theorem firstRejected_eq (h : s.draw = .reject) : s.firstRejected bytes = { s with
    tickPend := if s.src = .timer then false else s.tickPend
    counters := (s.counters.set 0 (s.counters[0] + 1)).set 4 (s.counters[4] + 1)
    tx := s.tx ++ [⟨0, bytes, .reject⟩], txDraws := s.txDraws.tail, drawCount := s.drawCount + 1 } := by
  rw [State.firstRejected, cntInc_txSend (s := s.ticking) h]
  simp [State.ticking, State.counter, Counter.ix]

theorem firstAccepted_eq (h : s.draw = .accept) : s.firstAccepted bytes = { s with
    tickPend := if s.src = .timer then false else s.tickPend
    counters := (s.counters.set 0 (s.counters[0] + 1)).set 3 (s.counters[3] + 1)
    tx := s.tx ++ [⟨0, bytes, .accept⟩], txDraws := s.txDraws.tail, drawCount := s.drawCount + 1 } := by
  rw [State.firstAccepted, cntInc_txSend (s := s.ticking) h]
  simp [State.ticking, State.counter, Counter.ix]

section courses

variable (hbytes₁ : bytes₁ = txBytes s.txEnv 0 (pack s.ct[0]))
  (hbytes₂ : bytes₂ = txBytes s.txEnv 1 (pack s.ct[1]))
  (hgate : ¬(s.air = true ∧ s.failsafe = true))

include hbytes₁

/-- After an Accept of bus 1 the loop goes on with bus 2, if there is one (R601, R606). -/
theorem sendAll_ticking_of_accept (h₁ : s.draw = .accept) :
    sendAll s.txEnv s.ct s.txBuses ⟨false, false, false, false⟩ s.ticking =
      sendAll s.txEnv s.ct (if s.bus2 then [1] else []) ⟨false, true, false, false⟩
        (s.firstAccepted bytes₁) := by
  rw [txBuses_eq_cons, sendAll_of_accept (s := s.ticking) h₁ hbytes₁]
  rfl

include hgate

/-- A Reject of bus 1 ends the tick, with one bus or two (R606, R612). -/
theorem exec_tick_reject (h₁ : s.draw = .reject) :
    exec .tick s = .next ((s.firstRejected bytes₁).respond .ok [8]) := by
  refine exec_tick_of_sendAll (f := ⟨false, false, false, true⟩) hgate ?_ (TickFlags.word_eq _)
  rw [txBuses_eq_cons, sendAll_of_reject (s := s.ticking) h₁ hbytes₁]
  rfl

/-- With one bus an Accept completes the tick (R601). -/
theorem exec_tick_accept (hbus : s.bus2 = false) (h₁ : s.draw = .accept) :
    exec .tick s = .next ((s.firstAccepted bytes₁).respond .ok [2]) := by
  refine exec_tick_of_sendAll (f := ⟨false, true, false, false⟩) hgate ?_ (TickFlags.word_eq _)
  rw [sendAll_ticking_of_accept hbytes₁ h₁, hbus]
  rfl

variable (hbus : s.bus2 = true) (h₁ : s.draw = .accept)

include hbytes₂ hbus h₁

/-- With two buses an Accept of bus 1 is followed by bus 2 (R606), from the snapshot of the same instant
(R604). -/
theorem exec_tick_accept_accept (h₂ : (s.firstAccepted bytes₁).draw = .accept) :
    exec .tick s
      = .next ((((s.firstAccepted bytes₁).txSend 1 bytes₂).cntInc .txOk).respond .ok [6]) := by
  refine exec_tick_of_sendAll (f := ⟨false, true, true, false⟩) hgate ?_ (TickFlags.word_eq _)
  rw [sendAll_ticking_of_accept hbytes₁ h₁, hbus, if_pos rfl, sendAll_of_accept h₂ hbytes₂]
  rfl

/-- A Reject of bus 2 is counted, and bus 1 stays sent (R612). -/
theorem exec_tick_accept_reject (h₂ : (s.firstAccepted bytes₁).draw = .reject) :
    exec .tick s
      = .next ((((s.firstAccepted bytes₁).txSend 1 bytes₂).cntInc .txErr).respond .ok [10]) := by
  refine exec_tick_of_sendAll (f := ⟨false, true, false, true⟩) hgate ?_ (TickFlags.word_eq _)
  rw [sendAll_ticking_of_accept hbytes₁ h₁, hbus, if_pos rfl, sendAll_of_reject h₂ hbytes₂]

end courses

/-- Settles O44: the two courses of a tick with one bus. -/
theorem tickSendsOneBus : Obligations.TickSendsOneBus := by
  unfold Obligations.TickSendsOneBus
  intro s bytes hgate hbus hbytes
  have hrecord : bytes = txBytes s.txEnv 0 (pack s.ct[0]) := hbytes.trans (txBytes_eq s.txEnv 0 _).symm
  refine ⟨fun h => ?_, fun h => ?_⟩
  · rw [exec_tick_accept hrecord hgate hbus h, firstAccepted_eq h]
    rfl
  · rw [exec_tick_reject hrecord hgate h, firstRejected_eq h]
    rfl

/-- Settles O45: the three courses of a tick with two buses. -/
theorem tickSendsTwoBuses : Obligations.TickSendsTwoBuses := by
  unfold Obligations.TickSendsTwoBuses
  intro s bytes₁ bytes₂ o₂ hgate hbus hbytes₁ hbytes₂ ho₂
  have hrecord₁ : bytes₁ = txBytes s.txEnv 0 (pack s.ct[0]) := hbytes₁.trans (txBytes_eq s.txEnv 0 _).symm
  have hrecord₂ : bytes₂ = txBytes s.txEnv 1 (pack s.ct[1]) := hbytes₂.trans (txBytes_eq s.txEnv 1 _).symm
  have hdraw₂ : (s.firstAccepted bytes₁).draw = o₂ := ho₂.symm
  refine ⟨fun h₁ => ?_, fun h₁ h₂ => ?_, fun h₁ h₂ => ?_⟩
  · rw [exec_tick_reject hrecord₁ hgate h₁, firstRejected_eq h₁]
    rfl
  · subst h₂
    rw [exec_tick_accept_accept hrecord₁ hrecord₂ hgate hbus h₁ hdraw₂, cntInc_txSend hdraw₂,
      firstAccepted_eq h₁]
    simp [State.counter, Counter.ix, State.respond, BitVec.add_assoc]
  · subst h₂
    rw [exec_tick_accept_reject hrecord₁ hrecord₂ hgate hbus h₁ hdraw₂, cntInc_txSend hdraw₂,
      firstAccepted_eq h₁]
    simp [State.counter, Counter.ix, State.respond]

end Sys2Proof.Machine
end

section
/-! PROOFS. What the far end has of a record (R611, R613). -/

namespace Sys2Proof.Machine

variable {s : State} {r : TxRecord} {i : Nat}

theorem received_of_accept (h : r.outcome = .accept) (k : Nat) : r.received k = r.bytes := by
  rw [TxRecord.received, h]

theorem received_of_reject (h : r.outcome = .reject) (k : Nat) : r.received k = r.bytes.take k := by
  rw [TxRecord.received, h]

theorem received_prefix_of_reject (h : r.outcome = .reject) (k : Nat) : r.received k <+: r.bytes :=
  received_of_reject h k ▸ List.take_prefix k r.bytes

/-- The far end's view of a record is what it received of it. -/
theorem farEnd_getElem? (h : s.tx[i]? = some r) :
    s.farEnd[i]? = some (r.received (Config.farEndBytes i)) := by
  simp [State.farEnd, h]

/-- Settles O46: a rejected record is cut where the transport stopped, which may be anywhere. -/
theorem farEndHasAPrefix : Obligations.FarEndHasAPrefix := by
  unfold Obligations.FarEndHasAPrefix
  refine ⟨fun r => ⟨received_of_accept, fun h => ⟨received_prefix_of_reject h, fun n hn => ⟨n, ?_⟩⟩⟩,
    fun s => ⟨by simp [State.farEnd], fun i r hr => ⟨_, farEnd_getElem? hr, ?_⟩⟩⟩
  · rw [received_of_reject h, List.length_take_of_le hn]
  · exact ⟨fun h => received_of_accept h _, fun h => received_prefix_of_reject h _⟩

end Sys2Proof.Machine
end

section
/-! PROOFS. The tick timer (R620 to R622): what one cycle of the reference clock does, and the cycles up
to a firing. -/

namespace Sys2Proof.Machine

variable {s : State} {fRef : Nat}

/-! ### One cycle -/

theorem timerOn_eq_false_iff : s.timerOn = false ↔ s.tmrEn = false ∨ s.rate = 0 := by
  simp [State.timerOn, or_iff_not_imp_left]

theorem timerOn_iff : s.timerOn = true ↔ s.tmrEn = true ∧ s.rate ≠ 0 := by
  simp [State.timerOn]

/-- A timer that does not count holds TMR_CNT at 0 (R620). -/
theorem timerCycle_of_off (h : s.timerOn = false) : s.timerCycle fRef = { s with tmrCnt := 0 } :=
  if_neg (Bool.eq_false_iff.mp h)

/-- At the last cycle of the N the timer fires and TMR_CNT returns to 0 (R620, R621). -/
theorem timerCycle_of_last (hon : s.timerOn = true) (hlast : s.tmrCnt.toNat + 1 ≥ ticksPer fRef s.rate) :
    s.timerCycle fRef = ({ s with tmrCnt := 0 } : State).timerFire := by
  rw [State.timerCycle, if_pos hon, if_pos hlast]

/-- Before it the cycle is counted, where the count fits 32 bits (R620, R126). -/
theorem timerCycle_of_before (hon : s.timerOn = true) (hbefore : s.tmrCnt.toNat + 1 < ticksPer fRef s.rate)
    (hfits : s.tmrCnt.toNat + 1 < 2 ^ 32) : s.timerCycle fRef = { s with tmrCnt := s.tmrCnt + 1 } := by
  rw [State.timerCycle, if_pos hon, if_neg (by omega), State.countUp, if_pos hfits]

/-- A firing with TICK_PEND clear sets it (R621). -/
theorem timerFire_of_clear (h : s.tickPend = false) : s.timerFire = { s with tickPend := true } :=
  if_neg (Bool.eq_false_iff.mp h)

/-- A firing with TICK_PEND set is missed, and counted (R622). -/
theorem timerFire_of_pending (h : s.tickPend = true) : s.timerFire = s.cntInc .tickMiss := if_pos h

/-- A clock that is not among the ready agents would change nothing (log entry 7). -/
theorem timerCycle_of_not_live (h : s.timerLive = false) : s.timerCycle fRef = s := by
  obtain ⟨hoff, hcnt⟩ : s.timerOn = false ∧ s.tmrCnt = 0 := by simpa [State.timerLive] using h
  rw [timerCycle_of_off hoff, ← hcnt]

/-- The step of the clock is one cycle of it (R620). -/
theorem step_of_clock (hpick : s.pick = some .clock) :
    step s = .next (s.chosen.timerCycle Config.fRef) := by
  simp only [step, hpick, move]

/-- Settles O47: the timer off, firing, missing and counting; then the step of the clock. -/
theorem timerCycle : Obligations.TimerCycle := by
  unfold Obligations.TimerCycle
  refine ⟨?_, fun s => step_of_clock, fun s fRef => timerCycle_of_not_live⟩
  rintro s fRef rate rfl
  refine ⟨fun hoff => timerCycle_of_off (timerOn_eq_false_iff.mpr hoff), fun hen hrate => ?_⟩
  have hon : s.timerOn = true := timerOn_iff.mpr ⟨hen, hrate⟩
  refine ⟨fun hlast hpend => ?_, fun hlast hpend => ?_, timerCycle_of_before hon⟩
  · exact (timerCycle_of_last hon hlast).trans (timerFire_of_clear hpend)
  · exact (timerCycle_of_last hon hlast).trans (timerFire_of_pending hpend)

/-! ### The cycles up to a firing -/

/-- Before cycle N the timer has counted the cycles made (R620). -/
theorem timerCycle_iterate (hon : s.timerOn = true) (hzero : s.tmrCnt = 0) {k : Nat}
    (hk : k < ticksPer fRef s.rate) (hfits : k < 2 ^ 32) :
    (fun u : State => u.timerCycle fRef)^[k] s = { s with tmrCnt := BitVec.ofNat 32 k } := by
  induction k with
  | zero => exact congrArg (fun c => { s with tmrCnt := c }) hzero
  | succ k ih =>
    have hcnt : (BitVec.ofNat 32 k).toNat = k := by rw [BitVec.toNat_ofNat, Nat.mod_eq_of_lt (by omega)]
    rw [Function.iterate_succ_apply', ih (by omega) (by omega), BitVec.ofNat_add]
    exact timerCycle_of_before (s := { s with tmrCnt := BitVec.ofNat 32 k }) hon
      (by rwa [hcnt]) (by rwa [hcnt])

/-- Cycle N is the last (R620). -/
theorem timerCycle_iterate_last (hon : s.timerOn = true) (hzero : s.tmrCnt = 0)
    (hN : ticksPer fRef s.rate ≤ 2 ^ 32) :
    (fun u : State => u.timerCycle fRef)^[ticksPer fRef s.rate] s = s.timerFire := by
  obtain ⟨n, hn⟩ : ∃ n, ticksPer fRef s.rate = n + 1 :=
    ⟨_, (Nat.sub_add_cancel (le_max_left _ _)).symm⟩
  have hcnt : (BitVec.ofNat 32 n).toNat = n := by rw [BitVec.toNat_ofNat, Nat.mod_eq_of_lt (by omega)]
  rw [hn, Function.iterate_succ_apply', timerCycle_iterate hon hzero (by omega) (by omega)]
  have hfire := timerCycle_of_last (s := { s with tmrCnt := BitVec.ofNat 32 n }) (fRef := fRef) hon
    (hcnt.symm ▸ hn.le)
  rwa [← hzero] at hfire

/-- Settles O48: the timer counts the cycles before N, and fires at N. -/
theorem timerFiresAtCycleN : Obligations.TimerFiresAtCycleN := by
  unfold Obligations.TimerFiresAtCycleN
  rintro s fRef rate rfl hen hrate hzero hpend hN
  have hon : s.timerOn = true := timerOn_iff.mpr ⟨hen, hrate⟩
  exact ⟨fun k hk => timerCycle_iterate hon hzero hk (hk.trans_le hN),
    (timerCycle_iterate_last hon hzero hN).trans (timerFire_of_clear hpend)⟩

end Sys2Proof.Machine
end

section
/-! PROOFS. PpmConverter (R652 to R658): the branches of both conversions, the ranges of their results,
the exact formulas, the round trips and the order. -/

namespace Sys2Proof.Machine

/-! ### The branches and the range of P2S -/

/-- Up to the low knee, and below the range as well, P2S is 0 (R652). -/
theorem p2s_of_le_loKnee {p : Int} (h : p ≤ 874) : p2s p = 0 := by
  unfold p2s
  split
  · rfl
  · exact if_pos h

/-- Between the knees P2S is linear (R652). -/
theorem p2s_of_linear {p : Int} (hlo : 875 ≤ p) (hhi : p ≤ 2152) : p2s p = (8 * p - 6992) / 5 := by
  rw [p2s, ppmMin, ppmMax, ppmLoKnee, ppmHiKnee, if_neg (by omega), if_neg (by omega), if_neg (by omega)]

/-- From the high knee to the end of the range P2S is CH_MAX (R652). -/
theorem p2s_of_hiKnee_le {p : Int} (hlo : 2153 ≤ p) (hhi : p ≤ 2200) : p2s p = 2047 := by
  rw [p2s, ppmMin, ppmMax, ppmLoKnee, ppmHiKnee, if_neg (by omega), if_neg (by omega), if_pos hlo, chMax]

/-- Above the range P2S fails closed (R652). -/
theorem p2s_of_max_lt {p : Int} (h : 2200 < p) : p2s p = 0 := if_pos (.inr h)

/-- R652: every result of P2S is a channel value. -/
theorem p2s_mem_range (p : Int) : 0 ≤ p2s p ∧ p2s p ≤ 2047 := by
  rcases le_or_gt p 874 with hlow | hlow
  · simp [p2s_of_le_loKnee hlow]
  rcases le_or_gt p 2152 with hlin | hlin
  · rw [p2s_of_linear hlow hlin]
    omega
  rcases le_or_gt p 2200 with hhigh | hhigh
  · simp [p2s_of_hiKnee_le hlin hhigh]
  · simp [p2s_of_max_lt hhigh]

/-! ### The branches and the range of S2P -/

/-- Outside the channel values S2P answers the sentinel 0 (R653). -/
theorem s2p_of_out {v : Int} (h : v < 0 ∨ v > 2047) : s2p v = 0 := if_pos h

theorem s2p_zero : s2p 0 = 800 := rfl

theorem s2p_chMax : s2p 2047 = 2200 := rfl

/-- Between its two end values S2P is linear (R653). -/
theorem s2p_of_linear {v : Int} (hlo : 1 ≤ v) (hhi : v ≤ 2046) : s2p v = (5 * v + 6996) / 8 := by
  rw [s2p, chMax, if_neg (by omega), if_neg (by omega), if_neg (by omega)]

/-- A channel value is an end value or in the linear part (R653). -/
theorem channel_cases {v : Int} (h0 : 0 ≤ v) (h1 : v ≤ 2047) : v = 0 ∨ (1 ≤ v ∧ v ≤ 2046) ∨ v = 2047 := by
  omega

/-- R653: S2P of a channel value is a width of the range. -/
theorem s2p_mem_range {v : Int} (h0 : 0 ≤ v) (h1 : v ≤ 2047) : 800 ≤ s2p v ∧ s2p v ≤ 2200 := by
  obtain rfl | ⟨hlo, hhi⟩ | rfl := channel_cases h0 h1
  · simp [s2p_zero]
  · rw [s2p_of_linear hlo hhi]
    omega
  · simp [s2p_chMax]

/-! ### The commands -/

/-- A result that fits in 31 bits is the value of its result word. -/
theorem toNat_ofInt_word {z : Int} (h0 : 0 ≤ z) (h1 : z < 2 ^ 31) : ((BitVec.ofInt 32 z).toNat : Int) = z := by
  rw [BitVec.toNat_ofInt]
  omega

theorem toNat_p2s_word (p : Int) : ((BitVec.ofInt 32 (p2s p)).toNat : Int) = p2s p := by
  obtain ⟨h0, h1⟩ := p2s_mem_range p
  exact toNat_ofInt_word h0 (by omega)

theorem toNat_s2p_word (v : Int) : ((BitVec.ofInt 32 (s2p v)).toNat : Int) = s2p v := by
  by_cases hout : v < 0 ∨ v > 2047
  · simp [s2p_of_out hout]
  · obtain ⟨h0, h1⟩ := s2p_mem_range (v := v) (by omega) (by omega)
    exact toNat_ofInt_word (by omega) (by omega)

/-- Settles O49: the model's div by 5 and by 8 rounds down (R42), as `Int.fdiv` does. -/
theorem ppmConversions : Obligations.PpmConversions := by
  unfold Obligations.PpmConversions
  refine ⟨rfl, rfl, fun p s => ⟨_, exec_ppmToSbus s p, ?_⟩, fun q s => ⟨_, exec_sbusToPpm s q, ?_⟩⟩
  · rw [toNat_p2s_word, Int.fdiv_eq_ediv_of_nonneg _ (by decide)]
    rfl
  · rw [toNat_s2p_word, Int.fdiv_eq_ediv_of_nonneg _ (by decide)]
    rfl

/-! ### The formulas of the source -/

/-- Settles O50: both formulas are quotients of integers, (8p - 6996)/5 and (5v + 6996)/8. -/
theorem ppmFormulasAreExact : Obligations.PpmFormulasAreExact := by
  unfold Obligations.PpmFormulasAreExact
  refine ⟨fun p hlo hhi => ?_, fun v hlo hhi => ?_⟩
  · have hquot : ((p : ℚ) - 874 - 1 / 2) / (5 / 8) = ((8 * p - 6996 : Int) : ℚ) / (5 : Nat) := by
      push_cast; ring
    rw [p2s_of_linear hlo hhi, hquot, Rat.ceil_intCast_div_natCast]
    omega
  · have hquot : (v : ℚ) * (5 / 8) + 874 + 1 / 2 = ((5 * v + 6996 : Int) : ℚ) / (8 : Nat) := by
      push_cast; ring
    rw [s2p_of_linear hlo hhi, hquot, Rat.floor_intCast_div_natCast]
    rfl

/-! ### The round trips -/

/-- R655: between the knees 8x - 6996 ≤ 5·P2S(x) ≤ 8x - 6992, so S2P leads back. -/
theorem s2p_p2s {x : Int} (hlo : 875 ≤ x) (hhi : x ≤ 2152) : s2p (p2s x) = x := by
  have hlin := p2s_of_linear hlo hhi
  have hbelow : 8 * x - 6996 ≤ 5 * p2s x := by omega
  have habove : 5 * p2s x ≤ 8 * x - 6992 := by omega
  rw [s2p_of_linear (by omega) (by omega)]
  omega

/-- R656, between the end values: 2046 alone leads past the high knee, to CH_MAX. -/
theorem abs_p2s_s2p_sub_le {v : Int} (hlo : 1 ≤ v) (hhi : v ≤ 2046) : |p2s (s2p v) - v| ≤ 1 := by
  obtain rfl | hlt := hhi.eq_or_lt
  · decide
  · have hlin := s2p_of_linear hlo hhi
    rw [p2s_of_linear (by omega) (by omega), abs_le]
    omega

/-- Settles O51: exact from a width, within 1 from a channel value. -/
theorem ppmRoundTrips : Obligations.PpmRoundTrips := by
  unfold Obligations.PpmRoundTrips
  refine ⟨fun x => s2p_p2s, fun v h0 h1 => ?_⟩
  obtain rfl | ⟨hlo, hhi⟩ | rfl := channel_cases h0 h1
  · decide
  · exact abs_p2s_s2p_sub_le hlo hhi
  · decide

/-! ### The order -/

/-- R658: P2S keeps the order up to PPM_MAX, where it drops to 0. -/
theorem p2s_le_p2s {p q : Int} (hle : p ≤ q) (hq : q ≤ 2200) : p2s p ≤ p2s q := by
  rcases le_or_gt p 874 with hlow | hlow
  · rw [p2s_of_le_loKnee hlow]
    exact (p2s_mem_range q).1
  rcases le_or_gt q 2152 with hlin | hhigh
  · rw [p2s_of_linear hlow (hle.trans hlin), p2s_of_linear (by omega) hlin]
    omega
  · rw [p2s_of_hiKnee_le hhigh hq]
    exact (p2s_mem_range p).2

/-- R658: S2P keeps the order of the channel values. -/
theorem s2p_le_s2p {v w : Int} (hv : 0 ≤ v) (hle : v ≤ w) (hw : w ≤ 2047) : s2p v ≤ s2p w := by
  obtain rfl | ⟨hlo, hlin⟩ | rfl := channel_cases hv (hle.trans hw)
  · rw [s2p_zero]
    exact (s2p_mem_range hle hw).1
  · obtain rfl | hlt := hw.eq_or_lt
    · rw [s2p_chMax]
      exact (s2p_mem_range hv hle).2
    · rw [s2p_of_linear hlo hlin, s2p_of_linear (by omega) (by omega)]
      omega
  · rw [le_antisymm hw hle]

/-- Settles O52: the rise of P2S needs no lower end, as P2S is 0 below the range too. -/
theorem ppmMonotone : Obligations.PpmMonotone := by
  unfold Obligations.PpmMonotone
  exact ⟨fun p q _ => p2s_le_p2s, fun v w => s2p_le_s2p⟩

end Sys2Proof.Machine
end

section
/-! PROOFS. The register file (R130, R710, R711, R720): the map between registers and their numbers,
the answer of CFG_RD and CFG_WR to each number, and how a LO read holds its HI half still. -/

namespace Sys2Proof.Machine

variable {s t : State} {n : Byte} {r : Reg} {v : Word} {i : Instr}

/-! ### The register map -/

/-- The number of a register, the register map read from its other side (R130, R150). -/
def Reg.number : Reg → Byte
  | .ctrl     => 0x00
  | .gndFreq  => 0x01
  | .alpha    => 0x02
  | .snrMin   => 0x03
  | .snrMax   => 0x04
  | .rssiMin  => 0x05
  | .rssiMax  => 0x06
  | .status   => 0x07
  | .fRssiLo  => 0x08
  | .fRssiHi  => 0x09
  | .fNoiseLo => 0x0A
  | .fNoiseHi => 0x0B
  | .cnt c    => BitVec.ofNat 8 (0x10 + c.ix.val)

theorem ofNumber_number (r : Reg) : Reg.ofNumber r.number = some r := by
  cases r with
  | cnt c => cases c <;> rfl
  | _ => rfl

/-- Each assigned number names one register, and each register has one number (R130). -/
theorem ofNumber_eq_some_iff : Reg.ofNumber n = some r ↔ r.number = n := by
  refine ⟨fun h => ?_, fun h => h ▸ ofNumber_number r⟩
  unfold Reg.ofNumber at h
  split at h <;> cases h <;> exact BitVec.eq_of_toNat_eq (Eq.symm ‹_›)

/-- The assigned numbers are 0x00 to 0x0B and 0x10 to 0x1C (R130). -/
theorem number_assigned (r : Reg) :
    r.number.toNat ≤ 0x0B ∨ (0x10 ≤ r.number.toNat ∧ r.number.toNat ≤ 0x1C) := by
  cases r with
  | cnt c => cases c <;> decide
  | _ => decide

theorem ofNumber_unassigned (h : (0x0C ≤ n.toNat ∧ n.toNat ≤ 0x0F) ∨ 0x1D ≤ n.toNat) :
    Reg.ofNumber n = none := by
  refine Option.eq_none_iff_forall_ne_some.mpr fun r hr => ?_
  have hassigned := number_assigned r
  rw [ofNumber_eq_some_iff.mp hr] at hassigned
  omega

theorem exists_counter_ix (k : Fin 13) : ∃ c : Counter, c.ix = k := by
  have hsurj : ∀ k : Fin 13, ∃ c ∈ [Counter.tick, .tickMiss, .fsSkip, .txOk, .txErr, .fsFrames,
      .fsResync, .fsDrop, .dgramOk, .dgramDrop, .badCmd, .lqObs, .rstatDrop], c.ix = k := by decide
  obtain ⟨c, _, hc⟩ := hsurj k
  exact ⟨c, hc⟩

/-! ### CFG_RD -/

theorem exec_cfgRd_of_assigned (s : State) (h : Reg.ofNumber n = some r) :
    exec (.cfgRd n) s = .next ((s.latch r).respond .ok [s.readReg r]) := by
  rw [exec_cfgRd, execCfgRd, h]

theorem exec_cfgRd_of_unassigned (s : State) (h : Reg.ofNumber n = none) :
    exec (.cfgRd n) s = .next (s.fail .badCmd .badReg [0]) := by
  rw [exec_cfgRd, execCfgRd, h]

/-- CFG_RD by register: the number is the register's own. -/
theorem exec_cfgRd_number (s : State) (r : Reg) :
    exec (.cfgRd r.number) s = .next ((s.latch r).respond .ok [s.readReg r]) :=
  exec_cfgRd_of_assigned s (ofNumber_number r)

/-- STATUS as a number: the four flags below bit 4, FS_CNT from bit 8 (R146). -/
theorem status_eq (s : State) : s.status = BitVec.ofNat 32 (s.failsafe.toNat + 2 * s.lqSeeded.toNat
    + 4 * (decide (1 ≤ s.fsCnt.val)).toNat + 8 * s.tickPend.toNat + 256 * s.fsCnt.val) := by
  unfold State.status
  generalize s.failsafe = failsafe, s.lqSeeded = seeded, s.fsCnt = cnt, s.tickPend = pending
  revert failsafe seeded cnt pending
  decide

/-- Settles O53: each assigned number is its register's, and each other number is no register's. -/
theorem cfgRdAnswers : Obligations.CfgRdAnswers := by
  unfold Obligations.CfgRdAnswers
  refine ⟨rfl, fun s => ⟨exec_cfgRd_number s .ctrl, exec_cfgRd_number s .gndFreq,
    exec_cfgRd_number s .alpha, exec_cfgRd_number s .snrMin, exec_cfgRd_number s .snrMax,
    exec_cfgRd_number s .rssiMin, exec_cfgRd_number s .rssiMax, ?_, exec_cfgRd_number s .fRssiLo,
    exec_cfgRd_number s .fRssiHi, exec_cfgRd_number s .fNoiseLo, exec_cfgRd_number s .fNoiseHi,
    fun k => ?_, fun n hn => exec_cfgRd_of_unassigned s (ofNumber_unassigned hn)⟩⟩
  · rw [← status_eq]
    exact exec_cfgRd_number s .status
  · obtain ⟨c, rfl⟩ := exists_counter_ix k
    exact exec_cfgRd_number s (.cnt c)

/-! ### CFG_WR -/

/-- CFG_WR answers by what its write gives: a state, or none (R720). -/
theorem exec_cfgWr_eq_elim (s : State) (n : Byte) (v : Word) :
    exec (.cfgWr n v) s = ((Reg.ofNumber n).bind (s.writeReg v)).elim
      (.next (s.fail .badCmd .badReg [])) fun t => .next (t.respond .ok []) := by
  rw [exec_cfgWr, execCfgWr]
  cases (Reg.ofNumber n).bind (s.writeReg v) <;> rfl

/-- The registers from 0x07 on are read-only (R130, R720). -/
theorem writeReg_of_readOnly (s : State) (v : Word) (h : 0x07 ≤ r.number.toNat) :
    s.writeReg v r = none := by
  cases r with
  | ctrl | gndFreq | alpha | snrMin | snrMax | rssiMin | rssiMax => exact absurd h (by decide)
  | _ => rfl

theorem exec_cfgWr_of_refused (s : State) (v : Word) (h : 0x07 ≤ n.toNat) :
    exec (.cfgWr n v) s = .next (s.fail .badCmd .badReg []) := by
  have hnone : (Reg.ofNumber n).bind (s.writeReg v) = none := Option.bind_eq_none_iff.mpr fun r hr =>
    writeReg_of_readOnly s v (by rwa [ofNumber_eq_some_iff.mp hr])
  rw [exec_cfgWr_eq_elim, hnone, Option.elim_none]

/-- A register of k bits holds the operand masked to them (R720). -/
theorem setWidth_setWidth_eq_and (v : Word) (k : Nat) :
    (v.setWidth k).setWidth 32 = v &&& BitVec.ofNat 32 (2 ^ k - 1) := by
  refine BitVec.eq_of_getLsbD_eq fun b hb => ?_
  rw [BitVec.getLsbD_setWidth, BitVec.getLsbD_setWidth, BitVec.getLsbD_and, BitVec.getLsbD_ofNat,
    Nat.testBit_two_pow_sub_one, decide_eq_true hb, Bool.true_and, Bool.true_and, Bool.and_comm]

/-- Settles O54: the seven writable registers take the operand, and no other number names one. -/
theorem cfgWrWrites : Obligations.CfgWrWrites := by
  unfold Obligations.CfgWrWrites
  exact ⟨rfl, fun v s => ⟨
    ⟨v.setWidth 7, exec_cfgWr_eq_elim s 0x00 v, setWidth_setWidth_eq_and v 7⟩,
    ⟨v.setWidth 16, exec_cfgWr_eq_elim s 0x01 v, setWidth_setWidth_eq_and v 16⟩,
    ⟨v.setWidth 16, exec_cfgWr_eq_elim s 0x02 v, setWidth_setWidth_eq_and v 16⟩,
    exec_cfgWr_eq_elim s 0x03 v, exec_cfgWr_eq_elim s 0x04 v, exec_cfgWr_eq_elim s 0x05 v,
    exec_cfgWr_eq_elim s 0x06 v, fun n => exec_cfgWr_of_refused s v⟩⟩

/-! ### The latched pair -/

theorem latch_latRssiHi_of_ne (s : State) (h : r ≠ .fRssiLo) : (s.latch r).latRssiHi = s.latRssiHi := by
  cases r with
  | fRssiLo => exact absurd rfl h
  | _ => rfl

theorem latch_latNoiseHi_of_ne (s : State) (h : r ≠ .fNoiseLo) :
    (s.latch r).latNoiseHi = s.latNoiseHi := by
  cases r with
  | fNoiseLo => exact absurd rfl h
  | _ => rfl

/-- A latch is written by the read of its own LO register alone (R127). -/
theorem exec_latches (h : exec i s = .next t) :
    (i ≠ .cfgRd 0x08 → t.latRssiHi = s.latRssiHi) ∧ (i ≠ .cfgRd 0x0A → t.latNoiseHi = s.latNoiseHi) := by
  by_cases hop : i.opcode = .cfgRd
  · cases i with
    | cfgRd n =>
      cases hreg : Reg.ofNumber n with
      | none =>
        rw [exec_cfgRd_of_unassigned s hreg] at h
        cases h
        exact ⟨fun _ => rfl, fun _ => rfl⟩
      | some r =>
        rw [exec_cfgRd_of_assigned s hreg] at h
        cases h
        obtain rfl := ofNumber_eq_some_iff.mp hreg
        exact ⟨fun hlo => latch_latRssiHi_of_ne s (by rintro rfl; exact hlo rfl),
          fun hlo => latch_latNoiseHi_of_ne s (by rintro rfl; exact hlo rfl)⟩
    | _ => cases hop
  · obtain ⟨hrssi, hnoise⟩ := (exec_writes h).latches hop
    exact ⟨fun _ => hrssi, fun _ => hnoise⟩

/-- Every command completes (R804). -/
theorem exec_isNext (i : Instr) (s : State) : ∃ t, exec i s = .next t := by
  cases i with
  | sbusDecode w =>
    rw [exec_sbusDecode, execSbusDecode]
    split <;> exact ⟨_, rfl⟩
  | cfgRd n =>
    rw [exec_cfgRd, execCfgRd]
    split <;> exact ⟨_, rfl⟩
  | cfgWr n v =>
    rw [exec_cfgWr, execCfgWr]
    split <;> exact ⟨_, rfl⟩
  | dgramRx w =>
    rw [exec_dgramRx, execDgramRx]
    split
    · exact ⟨_, rfl⟩
    · split <;> exact ⟨_, rfl⟩
  | _ => exact ⟨_, rfl⟩

/-- A sequence of commands completes, and keeps what each of its commands keeps. -/
theorem execAll_keeps {α : Type} {f : State → α} {is : List Instr}
    (hkeep : ∀ i ∈ is, ∀ s t, exec i s = .next t → f t = f s) (s : State) :
    ∃ u, execAll is s = some u ∧ f u = f s := by
  induction is generalizing s with
  | nil => exact ⟨s, rfl, rfl⟩
  | cons i is ih =>
    obtain ⟨t, ht⟩ := exec_isNext i s
    obtain ⟨u, hu, hfu⟩ := ih (fun j hj => hkeep j (List.mem_cons_of_mem i hj)) t
    refine ⟨u, ?_, hfu.trans (hkeep i List.mem_cons_self s t ht)⟩
    rw [execAll, ht]
    exact hu

theorem hiWord_append_loWord (F : Filtered) : hiWord F ++ loWord F = F :=
  BitVec.extractLsb'_append_extractLsb'

/-- Settles O55: the LO read latches the other half, and the commands between keep the latch. -/
theorem latchedPairIsOneValue : Obligations.LatchedPairIsOneValue := by
  unfold Obligations.LatchedPairIsOneValue
  intro s is
  refine ⟨fun hother => ?_, fun hother => ?_⟩
  · obtain ⟨u, hu, hlatch⟩ := execAll_keeps (f := State.latRssiHi)
      (fun i hi _ _ h => (exec_latches h).1 (hother i hi))
      ((s.latch .fRssiLo).respond .ok [loWord s.fRssi])
    refine ⟨_, u, _, u.latRssiHi, exec_cfgRd_number s .fRssiLo, rfl, hu, exec_cfgRd_number u .fRssiHi, ?_⟩
    rw [hlatch]
    exact hiWord_append_loWord s.fRssi
  · obtain ⟨u, hu, hlatch⟩ := execAll_keeps (f := State.latNoiseHi)
      (fun i hi _ _ h => (exec_latches h).2 (hother i hi))
      ((s.latch .fNoiseLo).respond .ok [loWord s.fNoise])
    refine ⟨_, u, _, u.latNoiseHi, exec_cfgRd_number s .fNoiseLo, rfl, hu, exec_cfgRd_number u .fNoiseHi, ?_⟩
    rw [hlatch]
    exact hiWord_append_loWord s.fNoise

end Sys2Proof.Machine
end

section
/-! PROOFS. DGRAM_RX (R700, R701, R703): the bytes of the envelope, the two checks in their order, and
the write of the bus that type_idx names. -/

namespace Sys2Proof.Machine

variable {w : Vector Word 7} {e : Envelope}

/-! ### The envelope -/

/-- The SBUS-mode bit is bit 5 of type_idx (R18, R700). -/
theorem and_envSbusBit_eq_zero_iff (x : Byte) : x &&& envSbusBit = 0 ↔ x.getLsbD 5 = false := by
  have hand : x &&& envSbusBit = if x.getLsbD 5 then envSbusBit else 0 := BitVec.and_twoPow x 5
  rw [hand]
  cases x.getLsbD 5 <;> decide

theorem and_envSbusBit_ne_zero {x : Byte} (h : x.getLsbD 5 = true) : x &&& envSbusBit ≠ 0 :=
  fun hzero => Bool.false_ne_true (((and_envSbusBit_eq_zero_iff x).mp hzero).symm.trans h)

/-- The bus is bit 0 of type_idx (R18, R700). -/
theorem envelopeBus_val (x : Byte) : (envelopeBus x).val = if x.getLsbD 0 then 1 else 0 := by
  have hand : x &&& envBusBit = if x.getLsbD 0 then envBusBit else 0 := BitVec.and_twoPow x 0
  rw [envelopeBus, hand]
  cases x.getLsbD 0 <;> decide

theorem envelopeFromWords_eq_ofFn (w : Vector Word 7) :
    frameFromWords 26 w.toList = Vector.ofFn fun k : Fin 26 => byteOfWords w k (by omega) := by
  refine Vector.ext fun k hk => ?_
  rw [frameFromWords_getElem w k hk (by omega), Vector.getElem_ofFn]

/-! ### The three outcomes -/

section outcomes

variable (s : State) (he : frameFromWords 26 w.toList = e)
include he

theorem exec_dgramRx_of_notSbus (hmode : (e[0]).getLsbD 5 = false) :
    exec (.dgramRx w) s = .next (s.fail .dgramDrop .notSbus []) := by
  rw [exec_dgramRx, execDgramRx, he, if_pos ((and_envSbusBit_eq_zero_iff _).mpr hmode)]

theorem exec_dgramRx_of_badMarker (hmode : (e[0]).getLsbD 5 = true)
    (hframe : markersOk (envelopeFrame e) = false) :
    exec (.dgramRx w) s = .next (s.fail .dgramDrop .badMarker []) := by
  rw [exec_dgramRx, execDgramRx, he, if_neg (and_envSbusBit_ne_zero hmode),
    decodeFrame_eq_none.mpr hframe]

/-- The write of an accepted envelope goes to the bus bit 0 names, all 16 channels (R503, R701). -/
theorem exec_dgramRx_of_accepted (hmode : (e[0]).getLsbD 5 = true)
    (hframe : markersOk (envelopeFrame e) = true) :
    exec (.dgramRx w) s = .next { s with
      ct := s.ct.set (if (e[0]).getLsbD 0 then 1 else 0) (unpack (envelopeFrame e)) (by split <;> omega)
      counters := s.counters.set 8 (s.counters[8] + 1)
      responses := s.responses ++ answer s.src .ok [] } := by
  rw [exec_dgramRx, execDgramRx, he, if_neg (and_envSbusBit_ne_zero hmode),
    decodeFrame_eq_some.mpr ⟨hframe, rfl⟩]
  simp only [← envelopeBus_val]
  rfl

end outcomes

/-- Settles O56: the mode bit and then the markers of the envelope in the words pick the outcome. -/
theorem dgramRxChecksAndWrites : Obligations.DgramRxChecksAndWrites := by
  unfold Obligations.DgramRxChecksAndWrites
  refine ⟨rfl, fun w s e f he hf => ?_⟩
  have hwords : frameFromWords 26 w.toList = e := (envelopeFromWords_eq_ofFn w).trans he.symm
  obtain rfl : f = envelopeFrame e := hf
  refine ⟨exec_dgramRx_of_notSbus s hwords, fun hmode hbad => ?_, fun hmode hstart hend => ?_⟩
  · exact exec_dgramRx_of_badMarker s hwords hmode (markersOk_eq_false_iff.mpr hbad)
  · exact exec_dgramRx_of_accepted s hwords hmode ((markersOk_iff _).mpr ⟨hstart, hend⟩)

end Sys2Proof.Machine
end

section
/-! PROOFS. Every command and every step completes (R804), and what the reset input and the reset
values are (R900, R901). -/

namespace Sys2Proof.Machine

variable {s : State}

/-! ### Nothing stops the block -/

/-- A command word completes, legal or not (R341, R804). -/
theorem runCommand_isNext (c : Command) (s : State) : ∃ t, runCommand c s = .next t := by
  unfold runCommand
  split
  · exact exec_isNext _ s
  · exact ⟨_, rfl⟩

theorem move_isNext (a : Agent) (s : State) : ∃ t, move a s = .next t := by
  cases a with
  | input | clock => exact ⟨_, rfl⟩
  | grant src =>
    simp only [move]
    split
    · exact runCommand_isNext _ _
    · exact ⟨s, rfl⟩

/-- Every step completes: it waits, or it is the move of the agent picked (R221, R804). -/
theorem step_isNext (s : State) : ∃ t, step s = .next t := by
  unfold step
  split
  · exact move_isNext _ s.chosen
  · exact ⟨s, rfl⟩

/-- Settles O11: no command and no move of an agent ends in a fault or a refusal. -/
theorem nothingStopsTheBlock : Obligations.NothingStopsTheBlock := by
  unfold Obligations.NothingStopsTheBlock
  exact ⟨exec_isNext, step_isNext⟩

/-! ### The reset values -/

/-- The ChannelTable holds 0 in every slot (R900). -/
theorem reset_ct (b : BusIx) (c : ChIx) : (State.reset.ct[b])[c] = 0 := by
  simp [State.reset]

theorem reset_fsBuf (k : Fin 25) : State.reset.fsBuf[k] = 0 := by
  simp [State.reset]

theorem reset_counters (k : Fin 13) : State.reset.counters[k] = 0 := by
  simp [State.reset]

/-- No flag is up and FS_CNT is 0, so STATUS reads 0 (R146, R900). -/
theorem reset_status : State.reset.status = 0 := by decide

/-- The limits of the hysteresis, as the signed numbers R900 gives. -/
theorem reset_limits :
    State.reset.snrMin.toInt = -10 ∧ State.reset.snrMax.toInt = -5 ∧
      State.reset.rssiMin.toInt = -130 ∧ State.reset.rssiMax.toInt = -125 := by decide

/-- Settles O14: the tables, the limits and STATUS by their lemmas, every other element by its field of
the reset state. -/
theorem resetValues : Obligations.ResetValues := by
  unfold Obligations.ResetValues
  obtain ⟨hsnrMin, hsnrMax, hrssiMin, hrssiMax⟩ := reset_limits
  exact ⟨reset_ct, rfl, rfl, rfl, rfl, reset_fsBuf, rfl, rfl, rfl, rfl, rfl, rfl, rfl, rfl,
    hsnrMin, hsnrMax, hrssiMin, hrssiMax, reset_status, reset_counters,
    fun _ => rfl, fun _ => rfl, rfl, rfl, rfl⟩

/-! ### The reset input -/

/-- While the reset input is asserted the input is the one agent that can move (R901). -/
theorem pick_eq_input_of_inReset {a : Agent} (h : s.inReset = true) (hpick : s.pick = some a) :
    a = .input := by
  by_contra ha
  have hreleased := inReset_of_pick hpick ha
  rw [h] at hreleased
  cases hreleased

theorem deliver_release_of_inReset (h : s.inReset = true) :
    s.deliver (.reset false) = s.toReset false := if_pos h

theorem deliver_release_of_released (h : s.inReset = false) : s.deliver (.reset false) = s := by
  simp [State.deliver, h]

/-- Settles O15: the assertion, what holds while it lasts and its release, and the idle release. -/
theorem resetInputDiscardsEverything : Obligations.ResetInputDiscardsEverything := by
  unfold Obligations.ResetInputDiscardsEverything
  refine ⟨fun s => rfl, fun s h => ⟨fun e => deliver_discards h, fun a => pick_eq_input_of_inReset h, ?_⟩,
    fun s => deliver_release_of_released⟩
  exact deliver_release_of_inReset h

/-! ### The invariants at reset -/

/-- Nothing is collected (R123, R900). -/
theorem CollectingStartsAtMarker.reset : CollectingStartsAtMarker State.reset :=
  fun h => absurd h (by decide)

/-- The filter is unset and holds 0 (R117, R118, R900). -/
theorem UnseededAtReset.reset : UnseededAtReset State.reset := fun _ => ⟨rfl, rfl, rfl⟩

/-- Nothing is presented and nothing has partly arrived (R300, R900). -/
theorem PortsFramed.reset : PortsFramed State.reset :=
  ⟨fun _ he => absurd he List.not_mem_nil, fun _ => rfl⟩

/-- The reset state holds no word and no command of any port (R27, R900). -/
theorem PortsBelow.reset (n : Nat) : PortsBelow n State.reset :=
  ⟨fun _ he => absurd he List.not_mem_nil, fun _ he => absurd he List.not_mem_nil,
    fun _ _ hw => absurd hw List.not_mem_nil⟩

theorem Inv.atReset : Inv State.reset where
  marker := .reset
  bounded := .toReset State.reset false
  unseeded := .reset
  framed := .reset
  reset := .of_released rfl

/-- Settles O21: each invariant by its lemma. -/
theorem invariantsHoldAtReset : Obligations.InvariantsHoldAtReset := by
  unfold Obligations.InvariantsHoldAtReset
  exact ⟨Inv.atReset, PortsBelow.reset⟩

end Sys2Proof.Machine
end
